-- ==== Sys2Proof/Word.lean ====
section
/-! DEFINITION. The word types of the Frame Codec Block and their plainest arithmetic. Bits are numbered from 0 at
the least significant bit, and every value is unsigned (R9). -/

namespace Sys2Proof

/-- A byte: 8 bits, bit 7 most significant (R9). -/
abbrev Byte := BitVec 8

/-- A 16-bit value: the bitmaps, the Two-data value and the data of the read port (R8, R34). -/
abbrev Half := BitVec 16

/-- An operation word (R53). -/
abbrev Word := BitVec 64

end Sys2Proof
end

