-- ==== Sys2Proof/Config.lean ====
section
/-! DEFINITION. What is fixed for the hardware: the parameters of R8, the wire constants of R66, and the one value the
spec leaves open, the contents of the receive buffer after reset. -/

namespace Sys2Proof

/-- `RX_MAX`: the capacity of the receive buffer, in bytes (R8, R16). -/
abbrev Config.rxMax : Nat := 256

/-- `TX_MAX`: the capacity of the transmit buffer, in bytes (R8, R19). -/
abbrev Config.txMax : Nat := 7

/-- `STATUS_LEN`: the length of a Status frame (R8, R65). -/
abbrev Config.statusLen : Nat := 9

/-- `MIN_FRAME`: the shortest frame whose checksum can be valid (R8, R89). -/
abbrev Config.minFrame : Nat := 5

/-- Start-of-frame marker (R66). -/
abbrev Config.stx : Byte := 0x02#8

/-- End-of-frame marker (R66). -/
abbrev Config.etx : Byte := 0x03#8

/-- Command opcode GET_STATUS (R66). -/
abbrev Config.getStatus : Byte := 0x30#8

/-- Command opcode UNLOCK_ONE (R66). -/
abbrev Config.unlockOne : Byte := 0x31#8

/-- Command opcode GET_ALL_BUS (R66). -/
abbrev Config.getAllBus : Byte := 0x32#8

/-- Command opcode UNLOCK_ALL (R66). -/
abbrev Config.unlockAll : Byte := 0x33#8

/-- Response opcode STATUS_SINGLE (R66). -/
abbrev Config.statusSingle : Byte := 0x35#8

/-- Response opcode STATUS_ALL (R66). -/
abbrev Config.statusAll : Byte := 0x36#8

/-- Command opcode SET_UNLOCK_TIME (R66). -/
abbrev Config.setUnlockTime : Byte := 0x37#8

/-- Response opcode UNLOCK_TIME (R66). -/
abbrev Config.unlockTime : Byte := 0x38#8

/-- Command opcode SET_DELAY_OR_BAUD (R66). -/
abbrev Config.setDelayOrBaud : Byte := 0x39#8

/-- FREE VALUE (R126, R136, decision D27; log entry 4). `rxbufReset n i` is what byte `i` of the receive buffer holds
after the `n`-th reset of a run until RXB writes it: `RXBUF_RESET`, "a draw with no law". It has no body, so no proof
can use its value. -/
opaque Config.rxbufReset : Nat → Nat → Byte

end Sys2Proof
end

