-- ==== Sys2Proof/Syntax.lean ====
section
/-! DEFINITION. The syntax of the block: one constructor for each row of the opcode table, what a decoder answers, and
the assembler's source statements (R73 to R75). -/

namespace Sys2Proof

/-- The rows of the opcode table. The first nine are the operations (R55, R58), with their operand fields assembled as
R56 says. The last eleven are the table's one-byte rows, the contents of wire frames (R66, R67): see log entry 1. -/
inductive Instr where
  /-- MKADDR: pack a control-unit id and a door index (R77). -/
  | mkaddr (cuId doorIndex : Byte)
  /-- BUILD0: build a Simple frame (R83). -/
  | build0 (addr cmd : Byte)
  /-- BUILD1: build a One-data frame (R84). -/
  | build1 (addr cmd data : Byte)
  /-- BUILD2: build a Two-data frame (R85). -/
  | build2 (addr cmd : Byte) (value : Half)
  /-- VCHK: validate the checksum of the received frame (R89). -/
  | vchk
  /-- PSTAT: parse the received bytes as a Status frame (R93). -/
  | pstat
  /-- RXRESP: response handling, then parse the first 9 bytes (R99). -/
  | rxresp
  /-- RXB: write one byte of the receive buffer (R105). -/
  | rxb (index byte : Byte)
  /-- RXL: set the receive length and the presence flag (R106). -/
  | rxl (length : Half) (present : Bool)
  /-- Wire command byte GET_STATUS (R66, R67). -/
  | getStatus
  /-- Wire command byte UNLOCK_ONE (R66, R67). -/
  | unlockOne
  /-- Wire command byte GET_ALL_BUS (R66, R67). -/
  | getAllBus
  /-- Wire command byte UNLOCK_ALL (R66, R67). -/
  | unlockAll
  /-- Wire response byte STATUS_SINGLE (R66, R67). -/
  | statusSingle
  /-- Wire response byte STATUS_ALL (R66, R67). -/
  | statusAll
  /-- Wire command byte SET_UNLOCK_TIME (R66, R67). -/
  | setUnlockTime
  /-- Wire response byte UNLOCK_TIME (R66, R67). -/
  | unlockTime
  /-- Wire command byte SET_DELAY_OR_BAUD (R66, R67). -/
  | setDelayOrBaud
  /-- Frame marker STX (R66, R70). -/
  | stx
  /-- Frame marker ETX (R66, R70). -/
  | etx
  deriving DecidableEq, Repr

/-- The `format` column of the opcode table. -/
inductive Format where
  /-- A 64-bit operation word (R53). -/
  | op64
  /-- A command or response byte, frame index 2 (R67). -/
  | wireCmd
  /-- A frame marker, recognised by position only (R70). -/
  | wireMarker
  deriving DecidableEq, Repr

/-- Why a word is Illegal (R59, R60). The hardware reports all of them as ILLEGAL_OP (R64). -/
inductive Illegal where
  /-- `OPC` is 0x00 or 0x0A to 0xFF (R59). -/
  | reservedCode
  /-- `RSV` is not zero (R60). -/
  | reservedBits
  /-- An operand field marked "rsv" for this `OPC` is not zero (R55, R60). -/
  | reservedOperand
  deriving DecidableEq, Repr

/-- The answer of a decoder: an operation or Illegal (R61). -/
inductive Decoded where
  | op (i : Instr)
  | illegal (why : Illegal)
  deriving DecidableEq, Repr

/-- A source statement of the assembler, its operands plain numbers: the nine operations (R73), the command
pseudo-instructions (R74) and the receive pseudo-instructions (R75). -/
inductive Source where
  | mkaddr (cu door : Nat)
  | build0 (addr cmd : Nat)
  | build1 (addr cmd data : Nat)
  | build2 (addr cmd value : Nat)
  | vchk
  | pstat
  | rxresp
  | rxb (index byte : Nat)
  | rxl (length present : Nat)
  | getstat (cu door : Nat)
  | unlock (cu door : Nat)
  | unlockall (cu : Nat)
  | rxframe (bytes : List Nat)
  | rxnone
  deriving DecidableEq, Repr

end Sys2Proof
end

