-- ==== Sys2Proof/WellFormed.lean ====
section
/-! DEFINITION. Which instructions are operations of the block, and which source statements assemble.

The operand fields of `Instr` have exactly the widths of R55 and R56, so that every operand value of an operation is
encodable: the one check left on an instruction is that it is an operation (R3, R54) and no wire byte. -/

namespace Sys2Proof

/-- The table's `format` of an instruction's row. -/
def Instr.format : Instr → Format
  | .mkaddr _ _ | .build0 _ _ | .build1 _ _ _ | .build2 _ _ _ | .vchk | .pstat | .rxresp | .rxb _ _ | .rxl _ _ => .op64
  | .getStatus | .unlockOne | .getAllBus | .unlockAll | .statusSingle | .statusAll | .setUnlockTime | .unlockTime
  | .setDelayOrBaud => .wireCmd
  | .stx | .etx => .wireMarker

/-- An instruction is well-formed when it is one of the nine operations, whose words have 64 bits (R53, R54). A wire
byte is the content of a frame and no operation. An RXL of any 16-bit length is well-formed: its bound is checked when
it executes (R61). -/
def Instr.wellFormed (i : Instr) : Bool := i.format == .op64

/-- An 8-bit operand of the assembler (R73). -/
def isByte (n : Nat) : Bool := decide (n ≤ 255)

/-- A 16-bit operand of the assembler (R73). -/
def isHalf (n : Nat) : Bool := decide (n ≤ 65535)

/-- R73: an operand outside its stated range is an assembly error. R75 bounds the bytes of RXFRAME at 256. R74 states no
range for its operands: their address is computed "by the MKADDR rule", so they take MKADDR's range (DEDUCED, log
entry 10). -/
def Source.wellFormed : Source → Bool
  | .mkaddr cu door => isByte cu && isByte door
  | .build0 addr cmd => isByte addr && isByte cmd
  | .build1 addr cmd data => isByte addr && isByte cmd && isByte data
  | .build2 addr cmd value => isByte addr && isByte cmd && isHalf value
  | .vchk | .pstat | .rxresp | .rxnone => true
  | .rxb index byte => isByte index && isByte byte
  | .rxl length present => isHalf length && decide (present ≤ 1)
  | .getstat cu door | .unlock cu door => isByte cu && isByte door
  | .unlockall cu => isByte cu
  | .rxframe bytes => bytes.all isByte && decide (bytes.length ≤ Config.rxMax)

end Sys2Proof
end

