-- ==== Sys2Proof/Decode.lean ====
section
/-! DEFINITION. The operation-word decoder of R61, the wire-byte rows of the opcode table, the encoder, and the table
itself as match and mask (R61). -/

namespace Sys2Proof

/-! ### Fields of an operation word (R53) -/

/-- `OPC`, bits 63:56. -/
def opcField (w : Word) : Byte := w.extractLsb' 56 8

/-- `RSV`, bits 55:32. -/
def rsvField (w : Word) : BitVec 24 := w.extractLsb' 32 24

/-- `A`, bits 31:24. -/
def aField (w : Word) : Byte := w.extractLsb' 24 8

/-- `B`, bits 23:16. -/
def bField (w : Word) : Byte := w.extractLsb' 16 8

/-- `H`, bits 15:8. -/
def hField (w : Word) : Byte := w.extractLsb' 8 8

/-- `L`, bits 7:0. -/
def lField (w : Word) : Byte := w.extractLsb' 0 8

/-! ### Decoding -/

/-- An operation whose reserved operand fields must be zero (R60): `ok` says that they are. -/
def legalIf (ok : Bool) (i : Instr) : Decoded := if ok then .op i else .illegal .reservedOperand

/-- R61: the operation of a word whose `RSV` is zero, from its other fields. -/
def decodeFields (opc a b h l : Byte) : Decoded :=
  if opc = 0x01#8 then legalIf (h == 0#8 && l == 0#8) (.mkaddr a b)
  else if opc = 0x02#8 then legalIf (h == 0#8 && l == 0#8) (.build0 a b)
  else if opc = 0x03#8 then legalIf (h == 0#8) (.build1 a b l)
  else if opc = 0x04#8 then .op (.build2 a b (h ++ l))
  else if opc = 0x05#8 then legalIf (a == 0#8 && b == 0#8 && h == 0#8 && l == 0#8) .vchk
  else if opc = 0x06#8 then legalIf (a == 0#8 && b == 0#8 && h == 0#8 && l == 0#8) .pstat
  else if opc = 0x07#8 then legalIf (a == 0#8 && b == 0#8 && h == 0#8 && l == 0#8) .rxresp
  else if opc = 0x08#8 then legalIf (b == 0#8 && h == 0#8) (.rxb a l)
  else if opc = 0x09#8 then legalIf (a == 0#8 && b.extractLsb' 1 7 == 0#7) (.rxl (h ++ l) (b.getLsbD 0))
  else .illegal .reservedCode

/-- R61: the decoder of operation words, total over all words. -/
def decodeOperation (w : Word) : Decoded :=
  if rsvField w = 0#24 then decodeFields (opcField w) (aField w) (bField w) (hField w) (lField w)
  else .illegal .reservedBits

/-- The one-byte rows of the opcode table: the wire opcodes and the frame markers (R66). -/
def decodeWire (c : Byte) : Option Instr :=
  if c = Config.getStatus then some .getStatus
  else if c = Config.unlockOne then some .unlockOne
  else if c = Config.getAllBus then some .getAllBus
  else if c = Config.unlockAll then some .unlockAll
  else if c = Config.statusSingle then some .statusSingle
  else if c = Config.statusAll then some .statusAll
  else if c = Config.setUnlockTime then some .setUnlockTime
  else if c = Config.unlockTime then some .unlockTime
  else if c = Config.setDelayOrBaud then some .setDelayOrBaud
  else if c = Config.stx then some .stx
  else if c = Config.etx then some .etx
  else none

/-- The decoder of the whole opcode table. A word that R61 calls Illegal and whose value is one of the table's bytes is
given that row's name; the meaning of such a row is R64's effect of an Illegal word, so that R61 and R64 hold of every
word (DEDUCED, log entry 1). -/
def decode (w : Word) : Decoded :=
  match decodeOperation w with
  | .op i => .op i
  | .illegal why =>
    if w.extractLsb' 8 56 = 0#56 then
      match decodeWire (lField w) with
      | some i => .op i
      | none => .illegal why
    else .illegal why

/-- Reading a table row's bits, bit 0 the least significant (R9): a word presented in parallel has no byte order (R41),
and the bits of the port above the row's are 0. -/
def decodeTableWord (nbits w : Nat) : Option Instr :=
  match decode (BitVec.ofNat 64 (w % 2 ^ nbits)) with
  | .op i => some i
  | .illegal _ => none

/-! ### Encoding -/

/-- An operation word from its fields, `RSV` zero (R53, R60). -/
def operationWord (opc a b h l : Byte) : Word := opc ++ 0#24 ++ a ++ b ++ h ++ l

/-- A wire byte as the word that presents it at the operation port. -/
def wireWord (c : Byte) : Word := c.zeroExtend 64

/-- R53, R55, R56: the word of an instruction, every reserved field zero. -/
def encode : Instr → Word
  | .mkaddr cuId doorIndex => operationWord 0x01#8 cuId doorIndex 0#8 0#8
  | .build0 addr cmd => operationWord 0x02#8 addr cmd 0#8 0#8
  | .build1 addr cmd data => operationWord 0x03#8 addr cmd 0#8 data
  | .build2 addr cmd value => operationWord 0x04#8 addr cmd (value.extractLsb' 8 8) (value.extractLsb' 0 8)
  | .vchk => operationWord 0x05#8 0#8 0#8 0#8 0#8
  | .pstat => operationWord 0x06#8 0#8 0#8 0#8 0#8
  | .rxresp => operationWord 0x07#8 0#8 0#8 0#8 0#8
  | .rxb index byte => operationWord 0x08#8 index 0#8 0#8 byte
  | .rxl length present =>
    operationWord 0x09#8 0#8 (0#7 ++ BitVec.ofBool present) (length.extractLsb' 8 8) (length.extractLsb' 0 8)
  | .getStatus => wireWord Config.getStatus
  | .unlockOne => wireWord Config.unlockOne
  | .getAllBus => wireWord Config.getAllBus
  | .unlockAll => wireWord Config.unlockAll
  | .statusSingle => wireWord Config.statusSingle
  | .statusAll => wireWord Config.statusAll
  | .setUnlockTime => wireWord Config.setUnlockTime
  | .unlockTime => wireWord Config.unlockTime
  | .setDelayOrBaud => wireWord Config.setDelayOrBaud
  | .stx => wireWord Config.stx
  | .etx => wireWord Config.etx

/-! ### The operation rows of the opcode table -/

/-- A 64-bit row of the opcode table: a word matches the row when it agrees with `pattern` under `mask` (R61). -/
structure OpcodeRow where
  mnemonic : String
  pattern : Word
  mask : Word
  deriving DecidableEq, Repr

/-- The nine operation rows, match and mask as R77, R83 to R85, R89, R93, R99, R105 and R106 give them. -/
def operationRows : List OpcodeRow :=
  [ ⟨"MKADDR", 0x0100000000000000#64, 0xFFFFFFFF0000FFFF#64⟩,
    ⟨"BUILD0", 0x0200000000000000#64, 0xFFFFFFFF0000FFFF#64⟩,
    ⟨"BUILD1", 0x0300000000000000#64, 0xFFFFFFFF0000FF00#64⟩,
    ⟨"BUILD2", 0x0400000000000000#64, 0xFFFFFFFF00000000#64⟩,
    ⟨"VCHK", 0x0500000000000000#64, 0xFFFFFFFFFFFFFFFF#64⟩,
    ⟨"PSTAT", 0x0600000000000000#64, 0xFFFFFFFFFFFFFFFF#64⟩,
    ⟨"RXRESP", 0x0700000000000000#64, 0xFFFFFFFFFFFFFFFF#64⟩,
    ⟨"RXB", 0x0800000000000000#64, 0xFFFFFFFF00FFFF00#64⟩,
    ⟨"RXL", 0x0900000000000000#64, 0xFFFFFFFFFFFE0000#64⟩ ]

/-- The word agrees with the row's match under its mask (R61). -/
def rowMatches (w : Word) (r : OpcodeRow) : Bool := w &&& r.mask == r.pattern

/-- The mnemonic of an instruction's row, as the opcode table spells it. -/
def mnemonicOf : Instr → String
  | .mkaddr _ _ => "MKADDR"
  | .build0 _ _ => "BUILD0"
  | .build1 _ _ _ => "BUILD1"
  | .build2 _ _ _ => "BUILD2"
  | .vchk => "VCHK"
  | .pstat => "PSTAT"
  | .rxresp => "RXRESP"
  | .rxb _ _ => "RXB"
  | .rxl _ _ => "RXL"
  | .getStatus => "GET_STATUS"
  | .unlockOne => "UNLOCK_ONE"
  | .getAllBus => "GET_ALL_BUS"
  | .unlockAll => "UNLOCK_ALL"
  | .statusSingle => "STATUS_SINGLE"
  | .statusAll => "STATUS_ALL"
  | .setUnlockTime => "SET_UNLOCK_TIME"
  | .unlockTime => "UNLOCK_TIME"
  | .setDelayOrBaud => "SET_DELAY_OR_BAUD"
  | .stx => "STX"
  | .etx => "ETX"

end Sys2Proof
end

