-- ==== Sys2Proof/Machine/State.lean ====
section
/-! DEFINITION. The state of one Frame Codec Block: every register of R13, plain data, and the host's side of the
interface (the inputs still to come, the program position of R14, the values read), which R32 does not count as state of
the block. -/

namespace Sys2Proof.Machine

/-- The receive buffer: the bytes RXB has written since the last reset, as (index, byte) pairs, indices strictly rising
(see `Memory.wf`). An unlisted index holds no written byte; what the machine reads there is the free value of
`State.rxByte` (log entries 4 and 5). -/
abbrev Memory := List Host.Cell

/-- One action of the host (R33, R34, R37). There is no other input. -/
inductive HostInput where
  /-- Issue an operation word at the operation port (R33). -/
  | issue (w : Word)
  /-- Read the register at a read-port address (R34). -/
  | read (addr : Half)
  /-- Assert the reset input (R37). -/
  | reset
  deriving DecidableEq, Repr

/-- The state. The fields up to `err` are R13's table, with its widths and legal values; the last four are the model's
own, on the host's side. -/
structure State where
  /-- `RXBUF[0..255]` (R16). -/
  rxbuf : Memory
  /-- `RXLEN`, a 9-bit register whose legal values are 0 to 256 (R13, R17; log entry 6). -/
  rxlen : Fin 257
  /-- `RXPRES` (R18). -/
  rxpres : Bool
  /-- `TXBUF[0..6]` (R19). -/
  txbuf : Vector Byte Config.txMax
  /-- `TXLEN` (R20). -/
  txlen : BitVec 3
  /-- `ADDR_OUT` (R21). -/
  addrOut : Byte
  /-- `CHK_OK` (R22). -/
  chkOk : Bool
  /-- `ST_VALID` (R23). -/
  stValid : Bool
  /-- `ST_ADDR` (R25). -/
  stAddr : Byte
  /-- `ST_CMD` (R26). -/
  stCmd : Byte
  /-- `ST_LOCK` (R27). -/
  stLock : Half
  /-- `ST_OCC` (R28). -/
  stOcc : Half
  /-- `ERR`, one of the codes of R110 (R29). -/
  err : BitVec 4
  /-- The inputs the host has yet to make, the next one first (R14, R33; log entry 2). -/
  pending : List HostInput
  /-- The program position `k`: how many operations have completed (R14; log entry 9). -/
  position : Nat
  /-- What the read port has returned to the host, oldest first (R34; log entry 8). -/
  replies : List Half
  /-- How many resets the run has seen; picks the draw of the unwritten receive bytes (R126, R127; log entry 4). -/
  resets : Nat
  deriving DecidableEq, Repr

/-- The error kinds of R110. `CONNECT_FAILURE` is the host's: the block never writes it (R112). -/
inductive ErrorKind where
  | none
  | frameTooShort
  | badFrameMarkers
  | checksumMismatch
  | unexpectedOpcode
  | noResponse
  | invalidResponseLength
  | connectFailure
  | illegalOp
  deriving DecidableEq, Repr

/-- A decoded Status frame: the echoed address and command bytes and the two bitmaps (R25 to R28). -/
structure Status where
  addr : Byte
  cmd : Byte
  lock : Half
  occ : Half
  deriving DecidableEq, Repr

/-- What decoding a byte sequence gives: a whole Status, or the first check that failed (R93, R94, R96). -/
inductive StatusResult where
  | ok (st : Status)
  | fail (e : ErrorKind)
  deriving DecidableEq, Repr

/-- The reasons the machine stops with a fault: NONE. Errors are result codes, "not traps" (R117), and no error is
fatal (R118), so no step of this machine faults. Nobody raises one; safe. -/
inductive Fault where
  deriving DecidableEq, Repr

/-- The reasons the model gives no meaning to an instruction. -/
inductive Refusal where
  /-- Raised only by an arm of `exec` whose instruction has no meaning yet. No arm of this model raises it; it would be
  safe, since the run ends there. -/
  | notModelled (mnemonic : String)
  deriving DecidableEq, Repr

/-- The block right after reset (R13, R126), with a host that has not issued anything. No receive byte has been written,
so every one of them holds the free value of the run's first draw. -/
def State.reset : State where
  rxbuf := []
  rxlen := 0
  rxpres := false
  txbuf := #v[0#8, 0#8, 0#8, 0#8, 0#8, 0#8, 0#8]
  txlen := 0#3
  addrOut := 0#8
  chkOk := false
  stValid := false
  stAddr := 0#8
  stCmd := 0#8
  stLock := 0#16
  stOcc := 0#16
  err := 0#4
  pending := []
  position := 0
  replies := []
  resets := 0

end Sys2Proof.Machine
end

