-- ==== Sys2Proof/Machine/Ops.lean ====
section
/-! DEFINITION. The named operations over memory and registers: the receive buffer, the checksum, ending an operation
(`complete`, `raise`, R10, R117), the common build procedure, Status decoding, and the read port. -/

namespace Sys2Proof.Machine

/-! ### The receive buffer as memory (R10, R39) -/

/-- The byte RXB has written at an index since the last reset, if any. -/
def Memory.read : Memory → Nat → Option Byte
  | [], _ => none
  | (a, b) :: m, i => if a = i then some b else Memory.read m i

/-- Writing one byte; the indices stay strictly rising. -/
def Memory.write : Memory → Nat → Byte → Memory
  | [], i, b => [(i, b)]
  | (a, c) :: m, i, b =>
    if i < a then (i, b) :: (a, c) :: m
    else if i = a then (i, b) :: m
    else (a, c) :: Memory.write m i b

/-- The canonical form: indices strictly rising and inside the buffer (R39). -/
def Memory.wf : Memory → Bool
  | [] => true
  | (a, _) :: m => decide (a < Config.rxMax) && m.all (fun c => decide (a < c.1)) && Memory.wf m

/-- `RXBUF[i]`: the byte last written there, else the free value the last reset left there (R13, R136). -/
def State.rxByte (s : State) (i : Nat) : Byte :=
  match s.rxbuf.read i with
  | some b => b
  | none => Config.rxbufReset s.resets i

/-- `MemRead(RXBUF, 0, n)` (R10). -/
def State.rxRead (s : State) (n : Nat) : List Byte := (List.range n).map s.rxByte

/-! ### The checksum -/

/-- R80: the low 8 bits of the unsigned arithmetic sum of the bytes. -/
def sum8 (bs : List Byte) : Byte := BitVec.ofNat 8 (bs.map BitVec.toNat).sum

/-- The last byte equals `sum8` of all the others (R68, R89, R97). -/
def checksumMatches (bs : List Byte) : Bool := sum8 bs.dropLast == bs.getLastD 0#8

/-! ### Ending an operation -/

/-- R110: the code `ERR` holds for a kind. -/
def ErrorKind.code : ErrorKind → BitVec 4
  | .none => 0#4
  | .frameTooShort => 1#4
  | .badFrameMarkers => 2#4
  | .checksumMismatch => 3#4
  | .unexpectedOpcode => 4#4
  | .noResponse => 5#4
  | .invalidResponseLength => 6#4
  | .connectFailure => 7#4
  | .illegalOp => 8#4

/-- Ending an operation with a code in `ERR` and nothing else: an error saves no state, changes no mode and transfers
control nowhere (R10, R117). -/
def State.raise (s : State) (e : ErrorKind) : State := { s with err := e.code }

/-- `complete`: `ERR <- NONE` (R10). -/
def State.complete (s : State) : State := s.raise .none

/-- R64: the whole effect of an Illegal word. -/
def State.illegalOp (s : State) : State := s.raise .illegalOp

/-! ### Building frames -/

/-- Byte `i` of the transmit buffer after a build of frame `f` (R82). -/
def frameByte (f : List Byte) (i : Nat) : Byte := f.getD i 0#8

/-- R82: the frame is the body followed by its checksum; the rest of `TXBUF` is cleared. -/
def State.build (s : State) (body : List Byte) : State :=
  let f := body ++ [sum8 body]
  { s with
    txbuf := #v[frameByte f 0, frameByte f 1, frameByte f 2, frameByte f 3, frameByte f 4, frameByte f 5, frameByte f 6]
    txlen := BitVec.ofNat 3 f.length }.complete

/-! ### Status decoding -/

/-- R92: the recognised status response opcodes. -/
def isStatusOpcode (cmd : Byte) : Bool := cmd == Config.statusSingle || cmd == Config.statusAll

/-- `decode_status` of R93, its checks in the order of R94: length, markers, checksum, opcode. -/
def decodeStatus (bs : List Byte) : StatusResult :=
  if bs.length < Config.statusLen then .fail .frameTooShort
  else if bs.getD 0 0#8 ≠ Config.stx ∨ bs.getD 7 0#8 ≠ Config.etx then .fail .badFrameMarkers
  else if checksumMatches bs = false then .fail .checksumMismatch
  else if isStatusOpcode (bs.getD 2 0#8) = false then .fail .unexpectedOpcode
  else .ok
    { addr := bs.getD 1 0#8
      cmd := bs.getD 2 0#8
      lock := bs.getD 4 0#8 ++ bs.getD 3 0#8
      occ := bs.getD 6 0#8 ++ bs.getD 5 0#8 }

/-- Writing the status registers from a decoding: all of them on success, all cleared on failure (R93, R96). -/
def State.commitStatus (s : State) : StatusResult → State
  | .ok st =>
    { s with
      stValid := true, stAddr := st.addr, stCmd := st.cmd, stLock := st.lock, stOcc := st.occ }.complete
  | .fail e =>
    { s with
      stValid := false, stAddr := 0#8, stCmd := 0#8, stLock := 0#16, stOcc := 0#16 }.raise e

/-! ### The read port -/

/-- A one-bit register as the read port shows it (R34). -/
def bitHalf (b : Bool) : Half := if b then 1#16 else 0#16

/-- R34 to R36: the 16-bit value at a read-port address; a reserved address reads 0. -/
def State.readPort (s : State) (addr : Half) : Half :=
  let n := addr.toNat
  if n < 0x100 then (s.rxByte n).zeroExtend 16
  else if n < 0x107 then (frameByte s.txbuf.toList (n - 0x100)).zeroExtend 16
  else if n = 0x110 then s.txlen.zeroExtend 16
  else if n = 0x111 then s.addrOut.zeroExtend 16
  else if n = 0x112 then bitHalf s.chkOk
  else if n = 0x113 then bitHalf s.stValid
  else if n = 0x114 then s.stAddr.zeroExtend 16
  else if n = 0x115 then s.stCmd.zeroExtend 16
  else if n = 0x116 then s.stLock
  else if n = 0x117 then s.stOcc
  else if n = 0x118 then s.err.zeroExtend 16
  else if n = 0x119 then BitVec.ofNat 16 s.rxlen.val
  else if n = 0x11A then bitHalf s.rxpres
  else 0#16

end Sys2Proof.Machine
end

