-- ==== Sys2Proof/Machine/Operands.lean ====
section
/-! DEFINITION. The operand forms of the operations. The operands of a word are taken as they are (R56); the two forms
that compute something are the halves of a 16-bit value and the implicit operand of the decoding operations, the
received bytes. -/

namespace Sys2Proof.Machine

/-- The low byte of a 16-bit value: LO of a Two-data frame (R40, R85). -/
def loByte (v : Half) : Byte := v.extractLsb' 0 8

/-- The high byte of a 16-bit value: HI of a Two-data frame (R40, R85). -/
def hiByte (v : Half) : Byte := v.extractLsb' 8 8

/-- The implicit operand of VCHK and PSTAT: no input when `RXPRES` = 0, else `MemRead(RXBUF, 0, RXLEN)` (R17, R18). -/
def State.rxInput (s : State) : Option (List Byte) :=
  if s.rxpres then some (s.rxRead s.rxlen.val) else none

/-- The body of a Simple frame (R65, R83). -/
def simpleBody (addr cmd : Byte) : List Byte := [Config.stx, addr, cmd, Config.etx]

/-- The body of a One-data frame (R65, R84). -/
def oneDataBody (addr cmd data : Byte) : List Byte := [Config.stx, addr, cmd, data, Config.etx]

/-- The body of a Two-data frame, low byte first (R65, R85). -/
def twoDataBody (addr cmd : Byte) (value : Half) : List Byte :=
  [Config.stx, addr, cmd, loByte value, hiByte value, Config.etx]

end Sys2Proof.Machine
end

