-- ==== Sys2Proof/Machine/Flags.lean ====
section
/-! DEFINITION. The flag computations. The block's only flags are `CHK_OK` and `ST_VALID` (R24); `ST_VALID` is written
with the status registers (`State.commitStatus`). The door view of the bitmaps stands here too (R30). -/

namespace Sys2Proof.Machine

/-- R89: the value of `CHK_OK` for an input. Absent input and input shorter than 5 bytes are not valid; otherwise the
last byte decides. -/
def checkFlag : Option (List Byte) → Bool
  | none => false
  | some bs => if bs.length < Config.minFrame then false else checksumMatches bs

/-- Writing the flag of VCHK; a bad checksum is a result, not an error (R89, R111). -/
def State.setCheckFlag (s : State) (ok : Bool) : State := { s with chkOk := ok }.complete

/-- R30: door `i` of the decoded Status is locked. -/
def State.locked (s : State) (i : Fin 16) : Bool := s.stLock.getLsbD i.val

/-- R30: door `i` of the decoded Status is occupied. -/
def State.occupied (s : State) (i : Fin 16) : Bool := s.stOcc.getLsbD i.val

end Sys2Proof.Machine
end

