-- ==== Sys2Proof/Machine/AddressPacker.lean ====
section
/-! DEFINITION. The address-byte packer: MKADDR (R77 to R79). -/

namespace Sys2Proof.Machine

/-- R69, R77: bits 3:0 of the control-unit id in the high half, bits 3:0 of the door index in the low half. -/
def packAddress (cuId doorIndex : Byte) : Byte := ((cuId &&& 0x0F#8) <<< 4) ||| (doorIndex &&& 0x0F#8)

/-- MKADDR (R77). -/
def execMkaddr (cuId doorIndex : Byte) (s : State) : Host.Outcome State Fault Refusal :=
  .next { s with addrOut := packAddress cuId doorIndex }.complete

end Sys2Proof.Machine
end

