-- ==== Sys2Proof/Machine/FrameDecoder.lean ====
section
/-! DEFINITION. The frame decoder and response framer: VCHK, PSTAT, RXRESP (R89 to R104). -/

namespace Sys2Proof.Machine

/-- VCHK (R89). -/
def execVchk (s : State) : Host.Outcome State Fault Refusal :=
  .next (s.setCheckFlag (checkFlag s.rxInput))

/-- What PSTAT decodes: absent input has length 0, any other input is decoded whole (R93, R97). -/
def parseInput : Option (List Byte) → StatusResult
  | none => .fail .frameTooShort
  | some bs => decodeStatus bs

/-- PSTAT (R93). -/
def execPstat (s : State) : Host.Outcome State Fault Refusal :=
  .next (s.commitStatus (parseInput s.rxInput))

/-- The response handling of R99: absent or empty, then too short, then the first 9 bytes. -/
def State.response (s : State) : StatusResult :=
  if s.rxpres = false ∨ s.rxlen.val = 0 then .fail .noResponse
  else if s.rxlen.val < Config.statusLen then .fail .invalidResponseLength
  else decodeStatus (s.rxRead Config.statusLen)

/-- RXRESP (R99). -/
def execRxresp (s : State) : Host.Outcome State Fault Refusal :=
  .next (s.commitStatus s.response)

end Sys2Proof.Machine
end

