-- ==== Sys2Proof/Machine/FrameEncoder.lean ====
section
/-! DEFINITION. The frame encoder: BUILD0, BUILD1, BUILD2 (R82 to R88). No build checks its operands (R86). -/

namespace Sys2Proof.Machine

/-- BUILD0, a Simple frame (R83). -/
def execBuild0 (addr cmd : Byte) (s : State) : Host.Outcome State Fault Refusal :=
  .next (s.build (simpleBody addr cmd))

/-- BUILD1, a One-data frame (R84). -/
def execBuild1 (addr cmd data : Byte) (s : State) : Host.Outcome State Fault Refusal :=
  .next (s.build (oneDataBody addr cmd data))

/-- BUILD2, a Two-data frame, the value low byte first (R85). -/
def execBuild2 (addr cmd : Byte) (value : Half) (s : State) : Host.Outcome State Fault Refusal :=
  .next (s.build (twoDataBody addr cmd value))

end Sys2Proof.Machine
end

