-- ==== Sys2Proof/Machine/ReceiveBuffer.lean ====
section
/-! DEFINITION. Receive-buffer loading: RXB and RXL (R105 to R109). -/

namespace Sys2Proof.Machine

/-- RXB: every 8-bit index is in the buffer (R105). -/
def execRxb (index byte : Byte) (s : State) : Host.Outcome State Fault Refusal :=
  .next { s with rxbuf := s.rxbuf.write index.toNat byte }.complete

/-- RXL: a length above 256 is ILLEGAL_OP and changes nothing else (R64, R106). -/
def execRxl (length : Half) (present : Bool) (s : State) : Host.Outcome State Fault Refusal :=
  if h : length.toNat < 257 then
    .next { s with rxlen := ⟨length.toNat, h⟩, rxpres := present }.complete
  else .next s.illegalOp

end Sys2Proof.Machine
end

