-- ==== Sys2Proof/Machine/WireBytes.lean ====
section
/-! DEFINITION. The one-byte rows of the opcode table, the contents of wire frames (R66, R67, R70). What the block does
with these bytes inside a frame is in the builds, which carry every byte unchecked (`State.build`), and in
`decodeStatus`, which checks index 0, 2 and 7. Issued at the operation port, such a byte is the word with `OPC` = 0x00,
which is reserved (R59): the block does exactly what R64 says of an Illegal word (log entry 1). -/

namespace Sys2Proof.Machine

/-- The word holding GET_STATUS 0x30 at the operation port is Illegal (R59, R61, R64). -/
def execGetStatus (s : State) : Host.Outcome State Fault Refusal := .next s.illegalOp

/-- The word holding UNLOCK_ONE 0x31 at the operation port is Illegal (R59, R61, R64). -/
def execUnlockOne (s : State) : Host.Outcome State Fault Refusal := .next s.illegalOp

/-- The word holding GET_ALL_BUS 0x32 at the operation port is Illegal (R59, R61, R64). -/
def execGetAllBus (s : State) : Host.Outcome State Fault Refusal := .next s.illegalOp

/-- The word holding UNLOCK_ALL 0x33 at the operation port is Illegal (R59, R61, R64). -/
def execUnlockAll (s : State) : Host.Outcome State Fault Refusal := .next s.illegalOp

/-- The word holding STATUS_SINGLE 0x35 at the operation port is Illegal (R59, R61, R64). -/
def execStatusSingle (s : State) : Host.Outcome State Fault Refusal := .next s.illegalOp

/-- The word holding STATUS_ALL 0x36 at the operation port is Illegal (R59, R61, R64). -/
def execStatusAll (s : State) : Host.Outcome State Fault Refusal := .next s.illegalOp

/-- The word holding SET_UNLOCK_TIME 0x37 at the operation port is Illegal (R59, R61, R64). -/
def execSetUnlockTime (s : State) : Host.Outcome State Fault Refusal := .next s.illegalOp

/-- The word holding UNLOCK_TIME 0x38 at the operation port is Illegal (R59, R61, R64). -/
def execUnlockTime (s : State) : Host.Outcome State Fault Refusal := .next s.illegalOp

/-- The word holding SET_DELAY_OR_BAUD 0x39 at the operation port is Illegal (R59, R61, R64). -/
def execSetDelayOrBaud (s : State) : Host.Outcome State Fault Refusal := .next s.illegalOp

/-- The word holding STX 0x02 at the operation port is Illegal (R59, R61, R64). -/
def execStx (s : State) : Host.Outcome State Fault Refusal := .next s.illegalOp

/-- The word holding ETX 0x03 at the operation port is Illegal (R59, R61, R64). -/
def execEtx (s : State) : Host.Outcome State Fault Refusal := .next s.illegalOp

end Sys2Proof.Machine
end

