-- ==== Sys2Proof/Machine/Dispatch.lean ====
section
/-! DEFINITION. One arm per row of the opcode table, each one call of the row's meaning. -/

namespace Sys2Proof.Machine

def exec (i : Instr) (s : State) : Host.Outcome State Fault Refusal :=
  match i with
  | .mkaddr cuId doorIndex => Sys2Proof.Machine.execMkaddr cuId doorIndex s
  | .build0 addr cmd => Sys2Proof.Machine.execBuild0 addr cmd s
  | .build1 addr cmd data => Sys2Proof.Machine.execBuild1 addr cmd data s
  | .build2 addr cmd value => Sys2Proof.Machine.execBuild2 addr cmd value s
  | .vchk => Sys2Proof.Machine.execVchk s
  | .pstat => Sys2Proof.Machine.execPstat s
  | .rxresp => Sys2Proof.Machine.execRxresp s
  | .rxb index byte => Sys2Proof.Machine.execRxb index byte s
  | .rxl length present => Sys2Proof.Machine.execRxl length present s
  | .getStatus => Sys2Proof.Machine.execGetStatus s
  | .unlockOne => Sys2Proof.Machine.execUnlockOne s
  | .getAllBus => Sys2Proof.Machine.execGetAllBus s
  | .unlockAll => Sys2Proof.Machine.execUnlockAll s
  | .statusSingle => Sys2Proof.Machine.execStatusSingle s
  | .statusAll => Sys2Proof.Machine.execStatusAll s
  | .setUnlockTime => Sys2Proof.Machine.execSetUnlockTime s
  | .unlockTime => Sys2Proof.Machine.execUnlockTime s
  | .setDelayOrBaud => Sys2Proof.Machine.execSetDelayOrBaud s
  | .stx => Sys2Proof.Machine.execStx s
  | .etx => Sys2Proof.Machine.execEtx s

end Sys2Proof.Machine
end

