-- ==== Sys2Proof/Machine/HostPort.lean ====
section
/-! DEFINITION. The host's side of the interface: what each input of the host does besides the operation itself. -/

namespace Sys2Proof.Machine

/-- The host's position moves on by one word when an operation completes, whatever its outcome (R14). -/
def State.retire (s : State) : State := { s with pending := s.pending.tail, position := s.position + 1 }

/-- A read-port read returns the value to the host and changes nothing of the block (R34, R44). -/
def State.answerRead (s : State) (addr : Half) : State :=
  { s with pending := s.pending.tail, replies := s.replies ++ [s.readPort addr] }

/-- R126, R127: the reset input puts every register at its reset value; the receive buffer holds a fresh draw. The
host's own side is not reset (log entry 9). -/
def State.applyReset (s : State) : State :=
  { State.reset with
    pending := s.pending.tail
    position := s.position
    replies := s.replies
    resets := s.resets + 1 }

/-- The host's next inputs become a list of operation words (R14: a host program). -/
def State.withProgram (s : State) (p : List Word) : State := { s with pending := p.map HostInput.issue }

end Sys2Proof.Machine
end

