-- ==== Sys2Proof/Machine/Step.lean ====
section
/-! DEFINITION. One step of the machine: the host's next input, as one atomic step (R33, R34, R45, R127). -/

namespace Sys2Proof.Machine

/-- One input of the host. An operation word runs its operation, or R64's effect when it is Illegal, and the host's
position moves on (R14); a read answers the host; reset puts the block at its reset state. A host that issues nothing
leaves the block in its last state (R130; log entry 3). -/
def step (s : State) : Host.Outcome State Fault Refusal :=
  match s.pending with
  | [] => .next s
  | .issue w :: _ =>
    match decode w with
    | .op i =>
      match exec i s with
      | .next t => .next t.retire
      | .fault r => .fault r
      | .refused r => .refused r
    | .illegal _ => .next s.illegalOp.retire
  | .read addr :: _ => .next (s.answerRead addr)
  | .reset :: _ => .next s.applyReset

/-- The host issues the word `w` next: the bits above `nbits` are zero (log entry 2). -/
def State.withFetchWord (s : State) (nbits w : Nat) : State :=
  { s with pending := .issue (BitVec.ofNat 64 (w % 2 ^ nbits)) :: s.pending }

end Sys2Proof.Machine
end

