-- ==== Sys2Proof/Machine/Assembler.lean ====
section
/-! DEFINITION. The assembler of R73 to R76: source statements to operation words, and source text to statements. It
adds no behaviour to the block (decision D28); the host issues the words it yields. -/

namespace Sys2Proof.Machine

/-! ### Statements to words -/

/-- The address byte of a pseudo-instruction, computed by the MKADDR rule (R74, R77). -/
def sourceAddress (cu door : Nat) : Byte := packAddress (BitVec.ofNat 8 cu) (BitVec.ofNat 8 door)

/-- `RXB i, b0; RXB i+1, b1; ...` (R75). -/
def loadBytes : Nat → List Nat → List Instr
  | _, [] => []
  | i, b :: bs => .rxb (BitVec.ofNat 8 i) (BitVec.ofNat 8 b) :: loadBytes (i + 1) bs

/-- R73 to R75: the operations a statement stands for. -/
def expand : Source → List Instr
  | .mkaddr cu door => [.mkaddr (BitVec.ofNat 8 cu) (BitVec.ofNat 8 door)]
  | .build0 addr cmd => [.build0 (BitVec.ofNat 8 addr) (BitVec.ofNat 8 cmd)]
  | .build1 addr cmd data => [.build1 (BitVec.ofNat 8 addr) (BitVec.ofNat 8 cmd) (BitVec.ofNat 8 data)]
  | .build2 addr cmd value => [.build2 (BitVec.ofNat 8 addr) (BitVec.ofNat 8 cmd) (BitVec.ofNat 16 value)]
  | .vchk => [.vchk]
  | .pstat => [.pstat]
  | .rxresp => [.rxresp]
  | .rxb index byte => [.rxb (BitVec.ofNat 8 index) (BitVec.ofNat 8 byte)]
  | .rxl length present => [.rxl (BitVec.ofNat 16 length) (present == 1)]
  | .getstat cu door => [.build0 (sourceAddress cu door) Config.getStatus]
  | .unlock cu door => [.build0 (sourceAddress cu door) Config.unlockOne]
  | .unlockall cu => [.build0 (sourceAddress cu 0) Config.unlockAll]
  | .rxframe bytes => loadBytes 0 bytes ++ [.rxl (BitVec.ofNat 16 bytes.length) true]
  | .rxnone => [.rxl 0#16 false]

/-- R73: a statement whose operands are in range gives its words; any other is an assembly error. -/
def assemble (src : Source) : Option (List Word) :=
  if src.wellFormed then some ((expand src).map encode) else none

/-- Every value present, or none. -/
def allSome {α : Type} : List (Option α) → Option (List α)
  | [] => some []
  | none :: _ => none
  | some a :: xs =>
    match allSome xs with
    | none => none
    | some as => some (a :: as)

/-- The words of a list of statements, in order; one assembly error refuses the whole (R73). -/
def assembleAll (srcs : List Source) : Option (List Word) := (allSome (srcs.map assemble)).map List.flatten

/-! ### Text to statements (R73, R76; log entry 10) -/

/-- R76: the symbolic constants. -/
def symbolValue (name : List Char) : Option Byte :=
  if name = "STX".toList then some Config.stx
  else if name = "ETX".toList then some Config.etx
  else if name = "GET_STATUS".toList then some Config.getStatus
  else if name = "UNLOCK_ONE".toList then some Config.unlockOne
  else if name = "GET_ALL_BUS".toList then some Config.getAllBus
  else if name = "UNLOCK_ALL".toList then some Config.unlockAll
  else if name = "SET_UNLOCK_TIME".toList then some Config.setUnlockTime
  else if name = "SET_DELAY_OR_BAUD".toList then some Config.setDelayOrBaud
  else if name = "STATUS_SINGLE".toList then some Config.statusSingle
  else if name = "STATUS_ALL".toList then some Config.statusAll
  else if name = "UNLOCK_TIME".toList then some Config.unlockTime
  else none

/-- A digit's value, if it is a digit of the base. -/
def digitValue (base : Nat) (c : Char) : Option Nat :=
  let n := c.toNat
  let v := if 48 ≤ n ∧ n ≤ 57 then n - 48 else if 65 ≤ n ∧ n ≤ 70 then n - 55 else if 97 ≤ n ∧ n ≤ 102 then n - 87 else base
  if v < base then some v else none

/-- The value of a run of digits that continues `acc`. -/
def digitsValue (base : Nat) : Nat → List Char → Option Nat
  | acc, [] => some acc
  | acc, c :: cs =>
    match digitValue base c with
    | none => none
    | some v => digitsValue base (acc * base + v) cs

/-- R73: a decimal number, or a hexadecimal one with `0x`. -/
def numberValue : List Char → Option Nat
  | [] => none
  | '0' :: 'x' :: [] => none
  | '0' :: 'x' :: c :: cs => digitsValue 16 0 (c :: cs)
  | c :: cs => digitsValue 10 0 (c :: cs)

/-- An operand: a symbolic constant may stand for any number (R73). -/
def operandValue (text : List Char) : Option Nat :=
  match symbolValue text with
  | some b => some b.toNat
  | none => numberValue text

/-- White space inside a line. -/
def isBlank (c : Char) : Bool := c == ' ' || c == '\t' || c == '\r'

/-- A text without the blanks at its ends. -/
def trimBlanks (cs : List Char) : List Char := ((cs.dropWhile isBlank).reverse.dropWhile isBlank).reverse

/-- The pieces of a text between separators; one piece when there is no separator. -/
def pieces (sep : Char) : List Char → List (List Char)
  | [] => [[]]
  | c :: cs =>
    if c == sep then [] :: pieces sep cs
    else
      match pieces sep cs with
      | [] => [[c]]
      | p :: ps => (c :: p) :: ps

/-- The operands after a mnemonic: none, or values separated by commas (R73). -/
def operandList (text : List Char) : Option (List Nat) :=
  match trimBlanks text with
  | [] => some []
  | c :: cs => allSome ((pieces ',' (c :: cs)).map (fun p => operandValue (trimBlanks p)))

/-- R73 to R75: the statement a mnemonic and its operands make, if it has that many. -/
def sourceOf (mnemonic : List Char) (operands : List Nat) : Option Source :=
  if mnemonic = "RXFRAME".toList then some (.rxframe operands)
  else
    match operands with
    | [] =>
      if mnemonic = "VCHK".toList then some .vchk
      else if mnemonic = "PSTAT".toList then some .pstat
      else if mnemonic = "RXRESP".toList then some .rxresp
      else if mnemonic = "RXNONE".toList then some .rxnone
      else none
    | [x] => if mnemonic = "UNLOCKALL".toList then some (.unlockall x) else none
    | [x, y] =>
      if mnemonic = "MKADDR".toList then some (.mkaddr x y)
      else if mnemonic = "BUILD0".toList then some (.build0 x y)
      else if mnemonic = "RXB".toList then some (.rxb x y)
      else if mnemonic = "RXL".toList then some (.rxl x y)
      else if mnemonic = "GETSTAT".toList then some (.getstat x y)
      else if mnemonic = "UNLOCK".toList then some (.unlock x y)
      else none
    | [x, y, z] =>
      if mnemonic = "BUILD1".toList then some (.build1 x y z)
      else if mnemonic = "BUILD2".toList then some (.build2 x y z)
      else none
    | _ => none

/-- R73: one line. `some []` is a line with no statement (blank, or a comment only), `none` an assembly error. -/
def parseLine (line : List Char) : Option (List Source) :=
  match trimBlanks (line.takeWhile (fun c => c != ';')) with
  | [] => some []
  | c :: cs =>
    let mnemonic := (c :: cs).takeWhile (fun d => !isBlank d)
    match operandList ((c :: cs).dropWhile (fun d => !isBlank d)) with
    | none => none
    | some operands => (sourceOf mnemonic operands).map (fun src => [src])

/-- R73: a text, one operation per line, to its operation words. -/
def assembleText (text : List Char) : Option (List Word) :=
  match allSome ((pieces '\n' text).map parseLine) with
  | none => none
  | some srcs => assembleAll srcs.flatten

end Sys2Proof.Machine
end

