-- ==== Sys2Proof/Safety.lean ====
section
/-! DEFINITION. What a legal state of the block is (the legal values of R13 and the relations the spec states between
registers), and what it means that the host has loaded every byte it declares (R136). -/

namespace Sys2Proof.Machine

/-- The first `n` bytes of `TXBUF`. -/
def State.txFrame (s : State) (n : Nat) : List Byte := s.txbuf.toList.take n

/-- R19, R20, R86: `TXLEN` is 0, 5, 6 or 7; the bytes from `TXLEN` on are 0x00; a built frame has its markers and its
checksum in place. -/
structure State.TxLegal (s : State) : Prop where
  length : s.txlen.toNat ∈ [0, 5, 6, 7]
  tail : ∀ i, s.txlen.toNat ≤ i → i < 7 → frameByte s.txbuf.toList i = 0#8
  markers : s.txlen.toNat ≠ 0 →
    frameByte s.txbuf.toList 0 = Config.stx ∧ frameByte s.txbuf.toList (s.txlen.toNat - 2) = Config.etx
  sum : s.txlen.toNat ≠ 0 → checksumMatches (s.txFrame s.txlen.toNat) = true

/-- R23, R26, R96: with `ST_VALID` = 0 every status register is zero; with `ST_VALID` = 1 the command is a recognised
status opcode. -/
structure State.StatusLegal (s : State) : Prop where
  invalid : s.stValid = false → s.stAddr = 0#8 ∧ s.stCmd = 0#8 ∧ s.stLock = 0#16 ∧ s.stOcc = 0#16
  valid : s.stValid = true → s.stCmd = Config.statusSingle ∨ s.stCmd = Config.statusAll

/-- A legal state: R13's legal values, and the canonical form of the receive buffer. -/
structure State.Legal (s : State) : Prop where
  memory : Memory.wf s.rxbuf = true
  tx : s.TxLegal
  status : s.StatusLegal
  /-- R110, R112: `ERR` holds one of the codes the block writes, 0 to 6 and 8. -/
  err : s.err.toNat ≤ 8 ∧ s.err ≠ ErrorKind.connectFailure.code

/-- R136: the host has written every byte below `RXLEN` since the last reset, so that no decoding operation reads an
unspecified byte. -/
def State.Loaded (s : State) : Prop := ∀ i, i < s.rxlen.val → ∃ b, s.rxbuf.read i = some b

/-- R14: running a host program `p` from its first word to its last. -/
def State.runWords (s : State) (p : List Word) : Host.Outcome State Fault Refusal :=
  Sys2Proof.core.run p.length (s.withProgram p)

/-- The registers of the block agree (R13), whatever the two hosts' sides hold. The receive buffer is compared as the
block reads it. -/
structure State.SameBlock (s t : State) : Prop where
  rxbuf : ∀ i, i < Config.rxMax → s.rxByte i = t.rxByte i
  rxlen : s.rxlen = t.rxlen
  rxpres : s.rxpres = t.rxpres
  txbuf : s.txbuf = t.txbuf
  txlen : s.txlen = t.txlen
  addrOut : s.addrOut = t.addrOut
  chkOk : s.chkOk = t.chkOk
  stValid : s.stValid = t.stValid
  stAddr : s.stAddr = t.stAddr
  stCmd : s.stCmd = t.stCmd
  stLock : s.stLock = t.stLock
  stOcc : s.stOcc = t.stOcc
  err : s.err = t.err

end Sys2Proof.Machine
end

