-- ==== Sys2Proof/Certificates/Slice0/Obligations.lean ====
section
/-! DEFINITION. The statements for the provers. Each docstring says what the statement claims and which part of the spec
it rests on; a clause that rests on a choice of the model names the log entry. -/

open Sys2Proof Sys2Proof.Machine

/-- Both in State.reset and after a step that takes the reset input, from any state, every register of R13 has the
value R126 gives it, and every byte of RXBUF holds the parameter RXBUF_RESET, a draw without a law. The step that
takes the reset input answers a next state. (States R126.) -/
def Obligations.ResetRegisterValues : Prop :=
  (∀ t : State, (t = State.reset ∨ ∃ s rest, s.pending = .reset :: rest ∧ step s = .next t) →
    t.rxlen.val = 0 ∧ t.rxpres = false ∧ (∀ i, i < 7 → frameByte t.txbuf.toList i = 0#8) ∧ t.txlen = 0#3 ∧
    t.addrOut = 0#8 ∧ t.chkOk = false ∧ t.stValid = false ∧ t.stAddr = 0#8 ∧ t.stCmd = 0#8 ∧ t.stLock = 0#16 ∧
    t.stOcc = 0#16 ∧ t.err = 0#4 ∧ ∀ i, i < 256 → t.rxByte i = Config.rxbufReset t.resets i) ∧
  ∀ s rest, s.pending = .reset :: rest → ∃ t, step s = .next t

/-- A step that takes the reset input removes it from the inputs to come, keeps the program position and the values
already read, and counts one more reset. This is the model's choice, log entries 4 and 9: the spec says only that the
program and its position are the host's. (Rests on 10_state.md section 5, 70_reset_and_hazards.md section 1.) -/
def Obligations.ResetLeavesHostSide : Prop :=
  ∀ s rest, s.pending = .reset :: rest →
    ∃ t, step s = .next t ∧ t.pending = rest ∧ t.position = s.position ∧ t.replies = s.replies ∧
      t.resets = s.resets + 1

/-- From State.reset: VCHK completes with CHK_OK = 0 and ERR = 0, PSTAT with ERR = 1 and RXRESP with ERR = 5, the last
two with ST_VALID = 0. Derived by the spec in R128. (Rests on 70_reset_and_hazards.md section 1.) -/
def Obligations.DecodingRightAfterReset : Prop :=
  exec .vchk State.reset = .next State.reset ∧
  exec .pstat State.reset = .next { State.reset with err := 1#4 } ∧
  exec .rxresp State.reset = .next { State.reset with err := 5#4 }

/-- State.reset meets the invariant State.Legal: canonical receive buffer, legal TXLEN and TXBUF, legal status
registers, legal ERR. (Rests on 10_state.md section 1, 70_reset_and_hazards.md section 1.) -/
def Obligations.LegalAtReset : Prop :=
  State.reset.Legal

/-- From every legal state, whatever input the host makes next, a step that answers a next state answers a legal one:
the receive buffer keeps its canonical form (strictly rising indices below 256); TXLEN stays 0, 5, 6 or 7, with zero
bytes beyond it and, when it is not 0, STX first, ETX next to last and the right checksum last; with ST_VALID = 0 the
status registers are zero and with ST_VALID = 1 the command is 0x35 or 0x36; ERR is one of the codes 0 to 6 and 8.
(Rests on 10_state.md section 1, 10_state.md section 3, 10_state.md section 4, 41_frame_encoder.md section 2,
42_frame_decoder.md section 2.) -/
def Obligations.LegalKeptByEveryStep : Prop :=
  ∀ s t : State, s.Legal → step s = .next t → t.Legal

/-- From every state and for every number of steps, running the machine answers a next state. Errors are result codes
and never stop the block. (Rests on 60_exceptions.md section 2, 10_state.md section 6.) -/
def Obligations.NoRunEverStops : Prop :=
  ∀ (k : Nat) (s : State), ∃ t : State, Sys2Proof.core.run k s = .next t

/-- When the host's next input issues a word that decodes to instruction i, exec of i answers a next state, and the
step answers that state with the word taken off the inputs and the position one further. (Rests on 10_state.md section
6, 30_encoding.md Part A.) -/
def Obligations.StepRunsDecodedInstruction : Prop :=
  ∀ (s : State) (w : Word) (rest : List HostInput) (i : Instr), s.pending = .issue w :: rest → decode w = .op i →
    ∃ t, exec i s = .next t ∧ step s = .next { t with pending := rest, position := s.position + 1 }

/-- When the host issues a word that R61 decodes to Illegal, or the word of an RXL whose length exceeds 256, the step
answers the same state with ERR = 8, the word taken off the inputs and the position one further. No register, buffer
byte or flag changes. (States R64.) -/
def Obligations.IllegalWordSetsErrOnly : Prop :=
  (∀ (s : State) (w : Word) (rest : List HostInput) (why : Illegal), s.pending = .issue w :: rest →
    decodeOperation w = .illegal why →
    step s = .next { s with err := 8#4, pending := rest, position := s.position + 1 }) ∧
  ∀ (s : State) (length : Half) (present : Bool) (rest : List HostInput),
    s.pending = .issue (encode (.rxl length present)) :: rest → 256 < length.toNat →
    step s = .next { s with err := 8#4, pending := rest, position := s.position + 1 }

/-- Running any list of words p, legal or Illegal, from any state takes exactly p.length steps, after which no input
is left and the position has advanced by p.length. (Rests on 10_state.md section 1.) -/
def Obligations.ProgramPositionAdvancesOncePerWord : Prop :=
  ∀ (s : State) (p : List Word),
    ∃ t, s.runWords p = .next t ∧ t.pending = [] ∧ t.position = s.position + p.length

/-- With no input to come, a step answers the same state. The model's reading of R130, log entry 3. (Rests on
70_reset_and_hazards.md section 1.) -/
def Obligations.IdleHostKeepsState : Prop :=
  ∀ s : State, s.pending = [] → step s = .next s

/-- For every state: addresses 0x0000 to 0x00FF show RXBUF, 0x0100 to 0x0106 TXBUF, 0x0110 to 0x011A the eleven
registers of the map, each zero-extended to 16 bits; 0x0107 to 0x010F and 0x011B to 0xFFFF read 0. A step that reads a
reserved address returns 0x0000 to the host and changes nothing of the block. (States R35, R36.) -/
def Obligations.ReadPortMap : Prop :=
  ∀ s : State,
    (∀ i, i < 0x100 → s.readPort (BitVec.ofNat 16 i) = (s.rxByte i).zeroExtend 16) ∧
    (∀ i, i < 7 → s.readPort (BitVec.ofNat 16 (0x100 + i)) = (frameByte s.txbuf.toList i).zeroExtend 16) ∧
    s.readPort 0x0110#16 = s.txlen.zeroExtend 16 ∧ s.readPort 0x0111#16 = s.addrOut.zeroExtend 16 ∧
    s.readPort 0x0112#16 = (BitVec.ofBool s.chkOk).zeroExtend 16 ∧
    s.readPort 0x0113#16 = (BitVec.ofBool s.stValid).zeroExtend 16 ∧
    s.readPort 0x0114#16 = s.stAddr.zeroExtend 16 ∧ s.readPort 0x0115#16 = s.stCmd.zeroExtend 16 ∧
    s.readPort 0x0116#16 = s.stLock ∧ s.readPort 0x0117#16 = s.stOcc ∧
    s.readPort 0x0118#16 = s.err.zeroExtend 16 ∧ (s.readPort 0x0119#16).toNat = s.rxlen.val ∧
    s.readPort 0x011A#16 = (BitVec.ofBool s.rxpres).zeroExtend 16 ∧
    ∀ a : Half, 0x107 ≤ a.toNat ∧ a.toNat ≤ 0x10F ∨ 0x11B ≤ a.toNat →
      s.readPort a = 0#16 ∧ ∀ rest, s.pending = .read a :: rest →
        step s = .next { s with pending := rest, replies := s.replies ++ [0#16] }

/-- Two read inputs of the same address, one after the other, complete in two steps; both return the value readPort
gives in the state before, and nothing else but the host's list of inputs changes. (Rests on 20_memory.md section 3.)
-/
def Obligations.ReadsHaveNoSideEffect : Prop :=
  ∀ (s : State) (a : Half) (rest : List HostInput), s.pending = .read a :: .read a :: rest →
    Sys2Proof.core.run 2 s =
      .next { s with pending := rest, replies := s.replies ++ [s.readPort a, s.readPort a] }

/-- For every instruction, with every value of every operand, the decoder of the whole table reads the instruction
from its encoding; and for every well-formed one, that is for the nine operations, the operation decoder of R61 alone
does. For the eleven one-byte rows (the nine wire opcodes, STX and ETX) the first clause is the model's choice, log
entry 1 (DEDUCED): R61 calls their words Illegal, and decode only gives such a word the name of its table row. (Rests
on 30_encoding.md Part A, 30_encoding.md Part B.) -/
def Obligations.DecodeEncodeAgree : Prop :=
  (∀ i : Instr, decode (encode i) = .op i) ∧
  ∀ i : Instr, i.wellFormed = true → decodeOperation (encode i) = .op i

/-- If the decoder of R61 reads operation i from word w, then i is well-formed and w is the encoding of i: no two
words are one operation, and no bit of a legal word is ignored. (Rests on 30_encoding.md Part A.) -/
def Obligations.OperationHasOneWord : Prop :=
  ∀ (w : Word) (i : Instr), decodeOperation w = .op i → i.wellFormed = true ∧ encode i = w

/-- For every word: either R61 decodes it to an operation and the operation's row is the only one of the nine
operation rows whose match it meets under its mask; or R61 decodes it to Illegal and it meets no row. (Rests on
30_encoding.md Part A.) -/
def Obligations.WordMatchesOneRowOrNone : Prop :=
  ∀ w : Word,
    (∃ i, decodeOperation w = .op i ∧ (operationRows.filter (rowMatches w)).map OpcodeRow.mnemonic = [mnemonicOf i]) ∨
    (∃ why, decodeOperation w = .illegal why ∧ operationRows.filter (rowMatches w) = [])

/-- Each of the nine words of R63's examples decodes to its operation, and the operation encodes to that word. (Rests
on 30_encoding.md Part A.) -/
def Obligations.EncodingExamples : Prop :=
  ∀ p ∈ [(0x0100000001030000#64, Instr.mkaddr 1#8 3#8), (0x0200000001300000#64, Instr.build0 0x01#8 0x30#8),
      (0x0300000013390005#64, Instr.build1 0x13#8 0x39#8 0x05#8),
      (0x0400000013371234#64, Instr.build2 0x13#8 0x37#8 0x1234#16), (0x0500000000000000#64, Instr.vchk),
      (0x0600000000000000#64, Instr.pstat), (0x0700000000000000#64, Instr.rxresp),
      (0x0800000007000003#64, Instr.rxb 7#8 0x03#8), (0x0900000000010009#64, Instr.rxl 9#16 true)],
    decode p.1 = .op p.2 ∧ encode p.2 = p.1

/-- A word is Illegal if RSV is not zero, or if a field R55 marks rsv for its operation code is not zero: H or L for
codes 1 and 2, H for 3, any operand field for 5 to 7, B or H for 8, A or B[7:1] for 9. (States R60.) -/
def Obligations.ReservedFieldsAreIllegal : Prop :=
  ∀ w : Word,
    (rsvField w ≠ 0#24 ∨
      ((opcField w = 0x01#8 ∨ opcField w = 0x02#8) ∧ (hField w ≠ 0#8 ∨ lField w ≠ 0#8)) ∨
      (opcField w = 0x03#8 ∧ hField w ≠ 0#8) ∨
      ((opcField w = 0x05#8 ∨ opcField w = 0x06#8 ∨ opcField w = 0x07#8) ∧
        (aField w ≠ 0#8 ∨ bField w ≠ 0#8 ∨ hField w ≠ 0#8 ∨ lField w ≠ 0#8)) ∨
      (opcField w = 0x08#8 ∧ (bField w ≠ 0#8 ∨ hField w ≠ 0#8)) ∨
      (opcField w = 0x09#8 ∧ (aField w ≠ 0#8 ∨ (bField w).extractLsb' 1 7 ≠ 0#7))) →
    ∃ why, decodeOperation w = .illegal why

/-- A word whose operation code is 0x00 or 0x0A to 0xFF decodes to Illegal under R61. (States R59.) -/
def Obligations.ReservedCodesAreIllegal : Prop :=
  ∀ w : Word, opcField w = 0x00#8 ∨ 0x0A ≤ (opcField w).toNat → ∃ why, decodeOperation w = .illegal why

/-- For all operands and every state MKADDR completes: ADDR_OUT is ((A & 0x0F) << 4) | (B & 0x0F), ERR is 0, every
other register and every byte of both buffers is unchanged. (Rests on 40_address_packer.md.) -/
def Obligations.MkaddrResult : Prop :=
  ∀ (a b : Byte) (s : State),
    exec (.mkaddr a b) s =
      .next { s with addrOut := ((a &&& 0x0F#8) <<< 4) ||| (b &&& 0x0F#8), err := 0#4 }

/-- MKADDR of A, B gives the same next state as MKADDR of their low nibbles; for A, B at most 15, ADDR_OUT is (A << 4)
| B; and a wider integer truncated to 8 bits gives the result of its value mod 16. Derived by the spec in R78. (Rests
on 40_address_packer.md.) -/
def Obligations.MkaddrMaskingLaw : Prop :=
  (∀ (a b : Byte) (s : State), exec (.mkaddr a b) s = exec (.mkaddr (a &&& 0x0F#8) (b &&& 0x0F#8)) s) ∧
  (∀ (a b : Byte) (s : State), a.toNat ≤ 15 → b.toNat ≤ 15 →
    exec (.mkaddr a b) s = .next { s with addrOut := (a <<< 4) ||| b, err := 0#4 }) ∧
  ∀ (m n : Nat) (s : State), exec (.mkaddr (BitVec.ofNat 8 m) (BitVec.ofNat 8 n)) s =
    .next { s with addrOut := BitVec.ofNat 8 (16 * (m % 16) + n % 16), err := 0#4 }

/-- For every byte a, the pair (a[7:4], a[3:0]) is below 16 in both parts and packs to a, and it is the only such
pair. Derived by the spec in R79. (Rests on 40_address_packer.md.) -/
def Obligations.PackingIsBijection : Prop :=
  ∀ a : Byte,
    packAddress ((a.extractLsb' 4 4).zeroExtend 8) ((a.extractLsb' 0 4).zeroExtend 8) = a ∧
    ∀ c d : Byte, c.toNat < 16 → d.toNat < 16 → packAddress c d = a →
      c = (a.extractLsb' 4 4).zeroExtend 8 ∧ d = (a.extractLsb' 0 4).zeroExtend 8

/-- For every byte sequence, sum8 is the low 8 bits of the unsigned sum of its bytes, sum8 of nothing is 0, and it
equals the result of an 8-bit accumulator that starts at 0 and adds each byte in turn modulo 256: no carry
wrap-around, no inversion, no seed. (States R80.) -/
def Obligations.Sum8IsSumModulo256 : Prop :=
  (∀ bs : List Byte, (sum8 bs).toNat = (bs.map BitVec.toNat).sum % 256) ∧ sum8 [] = 0#8 ∧
  ∀ bs : List Byte, (sum8 bs).toNat = bs.foldl (fun acc b => (acc + b.toNat) % 256) 0

/-- Addition wraps (0xFF and 0x01 sum to 0x00); a permutation of the bytes has the same sum8; appending a byte adds it
modulo 256; appending a zero byte changes nothing; and summing the bytes as signed 8-bit values gives the same low 8
bits. Derived by the spec in R81. (Rests on 41_frame_encoder.md section 1.) -/
def Obligations.Sum8Laws : Prop :=
  sum8 [0xFF#8, 0x01#8] = 0x00#8 ∧
  (∀ bs cs : List Byte, bs.Perm cs → sum8 bs = sum8 cs) ∧
  (∀ (bs : List Byte) (b : Byte), (sum8 (bs ++ [b])).toNat = ((sum8 bs).toNat + b.toNat) % 256) ∧
  (∀ bs : List Byte, sum8 (bs ++ [0x00#8]) = sum8 bs) ∧
  ∀ bs : List Byte, sum8 bs = BitVec.ofInt 8 (bs.map BitVec.toInt).sum

/-- For all operands and every state BUILD0 completes: TXBUF holds STX, ADDR, CMD, ETX, SUM and two zero bytes, the
last frame byte being the closed form of the checksum, TXLEN is 5, ERR is 0, and everything else, every byte of the
receive buffer included, is unchanged. (Rests on 41_frame_encoder.md section 2.) -/
def Obligations.Build0Result : Prop :=
  ∀ (a c : Byte) (s : State),
    exec (.build0 a c) s =
      .next { s with txbuf := #v[0x02#8, a, c, 0x03#8, 0x05#8 + a + c, 0#8, 0#8], txlen := 5#3, err := 0#4 }

/-- For all operands and every state BUILD1 completes: TXBUF holds STX, ADDR, CMD, DATA, ETX, SUM and one zero byte,
the last frame byte being the closed form of the checksum, TXLEN is 6, ERR is 0, and everything else, every byte of
the receive buffer included, is unchanged. (Rests on 41_frame_encoder.md section 2.) -/
def Obligations.Build1Result : Prop :=
  ∀ (a c d : Byte) (s : State),
    exec (.build1 a c d) s =
      .next { s with txbuf := #v[0x02#8, a, c, d, 0x03#8, 0x05#8 + a + c + d, 0#8], txlen := 6#3, err := 0#4 }

/-- For all operands and every state BUILD2 completes: TXBUF holds STX, ADDR, CMD, the low byte of the value, its high
byte, ETX and SUM, the last frame byte being the closed form of the checksum, TXLEN is 7, ERR is 0, and everything
else, every byte of the receive buffer included, is unchanged. (Rests on 41_frame_encoder.md section 2.) -/
def Obligations.Build2Result : Prop :=
  ∀ (a c h l : Byte) (s : State),
    exec (.build2 a c (h ++ l)) s =
      .next { s with txbuf := #v[0x02#8, a, c, l, h, 0x03#8, 0x05#8 + a + c + l + h], txlen := 7#3, err := 0#4 }

/-- Take the state after any build and any state whose receive side holds exactly that frame (RXPRES = 1, RXLEN =
TXLEN, the same bytes below it): VCHK completes there with CHK_OK = 1. Derived by the spec in R87. (Rests on
41_frame_encoder.md section 2.) -/
def Obligations.BuiltFramePassesVchk : Prop :=
  ∀ (i : Instr) (s t u : State),
    ((∃ a c, i = .build0 a c) ∨ (∃ a c d, i = .build1 a c d) ∨ ∃ a c v, i = .build2 a c v) →
    exec i s = .next t → u.rxpres = true → u.rxlen.val = t.txlen.toNat →
    (∀ j, j < t.txlen.toNat → u.rxByte j = frameByte t.txbuf.toList j) →
    exec .vchk u = .next { u with chkOk := true, err := 0#4 }

/-- From every state, the host program made of any build, the assembled RXFRAME of the bytes it leaves in
TXBUF[0..TXLEN), and VCHK runs to its end with CHK_OK = 1 and ERR = 0, the frame still in TXBUF. (Rests on
41_frame_encoder.md section 2, 43_receive_buffer.md, 20_memory.md section 4.) -/
def Obligations.LoopbackProgramValidates : Prop :=
  ∀ (i : Instr) (s t : State),
    ((∃ a c, i = .build0 a c) ∨ (∃ a c d, i = .build1 a c d) ∨ ∃ a c v, i = .build2 a c v) →
    exec i s = .next t →
    ∃ words u, assemble (.rxframe ((t.txFrame t.txlen.toNat).map BitVec.toNat)) = some words ∧
      s.runWords (encode i :: (words ++ [encode .vchk])) = .next u ∧
      u.chkOk = true ∧ u.err = 0#4 ∧ u.txbuf = t.txbuf ∧ u.txlen = t.txlen

/-- For every state VCHK completes: CHK_OK is 1 if RXPRES = 1, RXLEN is at least 5 and RXBUF[RXLEN-1] equals sum8 of
RXBUF[0..RXLEN-1), else 0; ERR is 0; nothing else changes. (Rests on 42_frame_decoder.md section 1.) -/
def Obligations.VchkResult : Prop :=
  ∀ s : State,
    exec .vchk s = .next { s with
      chkOk := s.rxpres && decide (5 ≤ s.rxlen.val) &&
        decide (sum8 (s.rxRead (s.rxlen.val - 1)) = s.rxByte (s.rxlen.val - 1))
      err := 0#4 }

/-- Take a byte sequence of at least 5 bytes that passes the check of VCHK, and change one byte, the SUM byte
included, to a different value: the check gives 0. Derived by the spec in R90. (Rests on 42_frame_decoder.md section
1.) -/
def Obligations.SingleByteChangeIsDetected : Prop :=
  ∀ (bs : List Byte) (j : Nat) (b : Byte), 5 ≤ bs.length → checkFlag (some bs) = true → j < bs.length →
    bs.getD j 0#8 ≠ b → checkFlag (some (bs.set j b)) = false

/-- For covered bytes of length at least 4 and any last byte: a permutation of the covered bytes, two changes that
cancel modulo 256, and an inserted zero byte all leave the check of VCHK as it was. (Rests on 42_frame_decoder.md
section 1.) -/
def Obligations.ChecksumMissesReordering : Prop :=
  (∀ (bs cs : List Byte) (m : Byte), 4 ≤ bs.length → bs.Perm cs →
    checkFlag (some (cs ++ [m])) = checkFlag (some (bs ++ [m]))) ∧
  (∀ (pre mid post : List Byte) (x y d m : Byte), 4 ≤ (pre ++ x :: mid ++ y :: post).length →
    checkFlag (some (pre ++ (x + d) :: mid ++ (y - d) :: post ++ [m])) =
      checkFlag (some (pre ++ x :: mid ++ y :: post ++ [m]))) ∧
  ∀ (pre post : List Byte) (m : Byte), 4 ≤ (pre ++ post).length →
    checkFlag (some (pre ++ 0x00#8 :: post ++ [m])) = checkFlag (some (pre ++ post ++ [m]))

/-- For every state PSTAT completes. In this order: absent input or RXLEN below 9 gives ERR 1; a wrong STX or ETX
gives 2; a last byte RXBUF[RXLEN-1] other than sum8 of all before it gives 3; a command other than 0x35 and 0x36 gives
4; in each of these ST_VALID is 0 and the four status registers are zero. Otherwise ST_VALID is 1, ST_ADDR and ST_CMD
are bytes 1 and 2, ST_LOCK is byte 4 over byte 3, ST_OCC byte 6 over byte 5, and ERR is 0. Nothing else changes.
(Rests on 42_frame_decoder.md section 2.) -/
def Obligations.PstatResult : Prop :=
  ∀ s : State,
    exec .pstat s = .next (
        if s.rxpres = false ∨ s.rxlen.val < 9 then
          { s with stValid := false, stAddr := 0#8, stCmd := 0#8, stLock := 0#16, stOcc := 0#16, err := 1#4 }
        else if s.rxByte 0 ≠ 0x02#8 ∨ s.rxByte 7 ≠ 0x03#8 then
          { s with stValid := false, stAddr := 0#8, stCmd := 0#8, stLock := 0#16, stOcc := 0#16, err := 2#4 }
        else if sum8 (s.rxRead (s.rxlen.val - 1)) ≠ s.rxByte (s.rxlen.val - 1) then
          { s with stValid := false, stAddr := 0#8, stCmd := 0#8, stLock := 0#16, stOcc := 0#16, err := 3#4 }
        else if s.rxByte 2 ≠ 0x35#8 ∧ s.rxByte 2 ≠ 0x36#8 then
          { s with stValid := false, stAddr := 0#8, stCmd := 0#8, stLock := 0#16, stOcc := 0#16, err := 4#4 }
        else { s with
          stValid := true, stAddr := s.rxByte 1, stCmd := s.rxByte 2, stLock := s.rxByte 4 ++ s.rxByte 3,
          stOcc := s.rxByte 6 ++ s.rxByte 5, err := 0#4 })

/-- For every state RXRESP completes. In this order: absent or empty input gives ERR 5; RXLEN below 9 gives 6; a wrong
STX or ETX gives 2; RXBUF[8] other than sum8 of RXBUF[0..8) gives 3; a command other than 0x35 and 0x36 gives 4; in
each of these ST_VALID is 0 and the four status registers are zero. Otherwise the Status of bytes 1 to 6 is written,
ST_VALID is 1 and ERR is 0. Nothing else changes. (Rests on 42_frame_decoder.md section 3.) -/
def Obligations.RxrespResult : Prop :=
  ∀ s : State,
    exec .rxresp s = .next (
        if s.rxpres = false ∨ s.rxlen.val = 0 then
          { s with stValid := false, stAddr := 0#8, stCmd := 0#8, stLock := 0#16, stOcc := 0#16, err := 5#4 }
        else if s.rxlen.val < 9 then
          { s with stValid := false, stAddr := 0#8, stCmd := 0#8, stLock := 0#16, stOcc := 0#16, err := 6#4 }
        else if s.rxByte 0 ≠ 0x02#8 ∨ s.rxByte 7 ≠ 0x03#8 then
          { s with stValid := false, stAddr := 0#8, stCmd := 0#8, stLock := 0#16, stOcc := 0#16, err := 2#4 }
        else if sum8 (s.rxRead 8) ≠ s.rxByte 8 then
          { s with stValid := false, stAddr := 0#8, stCmd := 0#8, stLock := 0#16, stOcc := 0#16, err := 3#4 }
        else if s.rxByte 2 ≠ 0x35#8 ∧ s.rxByte 2 ≠ 0x36#8 then
          { s with stValid := false, stAddr := 0#8, stCmd := 0#8, stLock := 0#16, stOcc := 0#16, err := 4#4 }
        else { s with
          stValid := true, stAddr := s.rxByte 1, stCmd := s.rxByte 2, stLock := s.rxByte 4 ++ s.rxByte 3,
          stOcc := s.rxByte 6 ++ s.rxByte 5, err := 0#4 })

/-- Whenever PSTAT or RXRESP ends with an error, ST_VALID is 0 and ST_ADDR, ST_CMD, ST_LOCK and ST_OCC are zero;
whenever it ends with ERR = 0, ST_VALID is 1 and ST_CMD is 0x35 or 0x36. Both operations always complete. (States
R96.) -/
def Obligations.NoPartialStatus : Prop :=
  ∀ (i : Instr) (s : State), i = .pstat ∨ i = .rxresp →
    ∃ t, exec i s = .next t ∧
      (t.err ≠ 0#4 → t.stValid = false ∧ t.stAddr = 0#8 ∧ t.stCmd = 0#8 ∧ t.stLock = 0#16 ∧ t.stOcc = 0#16) ∧
      (t.err = 0#4 → t.stValid = true ∧ (t.stCmd = 0x35#8 ∨ t.stCmd = 0x36#8))

/-- With RXPRES = 1 and RXLEN = 9 the two operations give the same next state. With absent input or RXLEN = 0, PSTAT
ends with ERR 1 and RXRESP with 5; with present input of 1 to 8 bytes, PSTAT ends with 1 and RXRESP with 6. Derived by
the spec in R101. (Rests on 42_frame_decoder.md section 3.) -/
def Obligations.PstatAndRxrespCompared : Prop :=
  ∀ s : State,
    (s.rxpres = true → s.rxlen.val = 9 → ∃ t, exec .pstat s = .next t ∧ exec .rxresp s = .next t) ∧
    (s.rxpres = false ∨ s.rxlen.val = 0 →
      ∃ t u, exec .pstat s = .next t ∧ exec .rxresp s = .next u ∧ t.err = 1#4 ∧ u.err = 5#4) ∧
    (s.rxpres = true → 1 ≤ s.rxlen.val → s.rxlen.val ≤ 8 →
      ∃ t u, exec .pstat s = .next t ∧ exec .rxresp s = .next u ∧ t.err = 1#4 ∧ u.err = 6#4)

/-- If PSTAT or RXRESP ends with ST_VALID = 1, then for each door i from 0 to 15 locked(i) is bit i of frame byte 3
for i below 8 and bit i - 8 of byte 4 otherwise, and occupied(i) likewise of bytes 5 and 6. The bit order is the
spec's own decision D9 (log entry 11). (Rests on 10_state.md section 4, 42_frame_decoder.md section 3.) -/
def Obligations.DoorViewReadsBitmapBytes : Prop :=
  ∀ (i : Instr) (s t : State) (d : Fin 16), i = .pstat ∨ i = .rxresp → exec i s = .next t → t.stValid = true →
    t.locked d = (if d.val < 8 then (s.rxByte 3).getLsbD d.val else (s.rxByte 4).getLsbD (d.val - 8)) ∧
    t.occupied d = (if d.val < 8 then (s.rxByte 5).getLsbD d.val else (s.rxByte 6).getLsbD (d.val - 8))

/-- Two states with the same RXPRES and RXLEN, whose receive bytes agree below RXLEN if RXPRES = 1, get the same
CHK_OK and ERR from VCHK and the same status registers and ERR from PSTAT. (Rests on 20_memory.md section 2.) -/
def Obligations.DecodersReadOnlyBelowRxlen : Prop :=
  ∀ s u : State, s.rxpres = u.rxpres → s.rxlen = u.rxlen →
    (s.rxpres = true → ∀ j, j < s.rxlen.val → s.rxByte j = u.rxByte j) →
    (∃ s' u', exec .vchk s = .next s' ∧ exec .vchk u = .next u' ∧ s'.chkOk = u'.chkOk ∧ s'.err = u'.err) ∧
    (∃ s' u', exec .pstat s = .next s' ∧ exec .pstat u = .next u' ∧ s'.stValid = u'.stValid ∧ s'.stAddr = u'.stAddr ∧
      s'.stCmd = u'.stCmd ∧ s'.stLock = u'.stLock ∧ s'.stOcc = u'.stOcc ∧ s'.err = u'.err)

/-- Two states with the same RXPRES and RXLEN, whose first 9 receive bytes agree if RXPRES = 1 and RXLEN is at least
9, get the same status registers and ERR from RXRESP, whatever follows in the buffer. (Rests on 42_frame_decoder.md
section 3, 20_memory.md section 2.) -/
def Obligations.RxrespReadsOnlyFirstNine : Prop :=
  ∀ s u : State, s.rxpres = u.rxpres → s.rxlen = u.rxlen →
    (s.rxpres = true → 9 ≤ s.rxlen.val → ∀ j, j < 9 → s.rxByte j = u.rxByte j) →
    ∃ s' u', exec .rxresp s = .next s' ∧ exec .rxresp u = .next u' ∧ s'.stValid = u'.stValid ∧ s'.stAddr = u'.stAddr ∧
      s'.stCmd = u'.stCmd ∧ s'.stLock = u'.stLock ∧ s'.stOcc = u'.stOcc ∧ s'.err = u'.err

/-- If the host has written every receive byte below RXLEN since reset, then VCHK, PSTAT and RXRESP complete with the
same registers whichever draw of the reset contents the state has. (Rests on 70_reset_and_hazards.md section 3.) -/
def Obligations.LoadedInputHidesResetBytes : Prop :=
  ∀ (i : Instr) (s : State) (n : Nat), i = .vchk ∨ i = .pstat ∨ i = .rxresp → s.Loaded →
    ∃ t, exec i s = .next t ∧ exec i { s with resets := n } = .next { t with resets := n }

/-- For every command byte: each build leaves it at frame index 2; and PSTAT and RXRESP, on input that passes every
check before the opcode, end with ERR 0 if the byte is 0x35 or 0x36 and with ERR 4 otherwise. (Rests on 30_encoding.md
Part B, 42_frame_decoder.md section 2.) -/
def Obligations.WireOpcodeTreatment : Prop :=
  ∀ c : Byte,
    (∀ (a d : Byte) (v : Half) (s : State), ∃ t0 t1 t2, exec (.build0 a c) s = .next t0 ∧
      exec (.build1 a c d) s = .next t1 ∧ exec (.build2 a c v) s = .next t2 ∧
      frameByte t0.txbuf.toList 2 = c ∧ frameByte t1.txbuf.toList 2 = c ∧ frameByte t2.txbuf.toList 2 = c) ∧
    (∀ s : State, s.rxpres = true → 9 ≤ s.rxlen.val → s.rxByte 0 = Config.stx → s.rxByte 7 = Config.etx →
      sum8 (s.rxRead (s.rxlen.val - 1)) = s.rxByte (s.rxlen.val - 1) → s.rxByte 2 = c →
      ∃ t, exec .pstat s = .next t ∧ t.err = if c = 0x35#8 ∨ c = 0x36#8 then 0#4 else 4#4) ∧
    (∀ s : State, s.rxpres = true → 9 ≤ s.rxlen.val → s.rxByte 0 = Config.stx → s.rxByte 7 = Config.etx →
      sum8 (s.rxRead 8) = s.rxByte 8 → s.rxByte 2 = c →
      ∃ t, exec .rxresp s = .next t ∧ t.err = if c = 0x35#8 ∨ c = 0x36#8 then 0#4 else 4#4)

/-- For each of the eleven one-byte rows of the opcode table (the nine wire opcodes, STX and ETX) and every state,
exec answers the same state with ERR = 8: as an operation word the byte has the reserved code 0x00, and R61's decoder
calls its word Illegal. That these rows are run at the operation port is the model's reading, log entry 1. (Rests on
30_encoding.md Part A, 30_encoding.md Part B.) -/
def Obligations.WireBytesAreIllegalOperations : Prop :=
  ∀ i ∈ [Instr.getStatus, .unlockOne, .getAllBus, .unlockAll, .statusSingle, .statusAll, .setUnlockTime, .unlockTime,
      .setDelayOrBaud, .stx, .etx],
    (∀ s : State, exec i s = .next { s with err := 8#4 }) ∧ ∃ why, decodeOperation (encode i) = .illegal why

/-- For every index, byte and state RXB completes: the byte at the index reads as written, every other receive byte
reads as before, ERR is 0, and every other register is unchanged. (Rests on 43_receive_buffer.md.) -/
def Obligations.RxbResult : Prop :=
  ∀ (x b : Byte) (s : State),
    ∃ t, exec (.rxb x b) s = .next t ∧ t.rxByte x.toNat = b ∧ (∀ j, j ≠ x.toNat → t.rxByte j = s.rxByte j) ∧
      t = { s with rxbuf := t.rxbuf, err := 0#4 }

/-- For every length, presence bit and state RXL completes. Up to 256, RXLEN is the length, RXPRES the bit and ERR 0;
above 256, ERR is 8 and RXLEN and RXPRES keep their values. Nothing else changes, and no receive byte does. (Rests on
43_receive_buffer.md.) -/
def Obligations.RxlResult : Prop :=
  ∀ (n : Half) (p : Bool) (s : State),
    (n.toNat ≤ 256 → ∃ t, exec (.rxl n p) s = .next t ∧ t.rxlen.val = n.toNat ∧
      t = { s with rxlen := t.rxlen, rxpres := p, err := 0#4 }) ∧
    (256 < n.toNat → exec (.rxl n p) s = .next { s with err := 8#4 })

/-- From every state, running the words RXFRAME assembles to leaves RXBUF[i] = b_i below n, every byte from n on
unchanged, RXLEN = n, RXPRES = 1 and ERR = 0; no other register changes, and the position has advanced by n + 1.
Derived by the spec in R108. (Rests on 43_receive_buffer.md, 30_encoding.md Part C.) -/
def Obligations.RxframeLoadsResponse : Prop :=
  ∀ (s : State) (bytes : List Nat) (words : List Word), assemble (.rxframe bytes) = some words →
    ∃ t, s.runWords words = .next t ∧
      (∀ i, i < bytes.length → (t.rxByte i).toNat = bytes.getD i 0) ∧
      (∀ i, bytes.length ≤ i → t.rxByte i = s.rxByte i) ∧ t.rxlen.val = bytes.length ∧
      t = { s with rxbuf := t.rxbuf, rxlen := t.rxlen, rxpres := true, err := 0#4, pending := [],
                   position := s.position + (bytes.length + 1) }

/-- For RXB operations at distinct indices and one RXL of a length up to 256, every permutation of the list, run from
a state whose receive buffer is in canonical form, ends in the same next state. Derived by the spec in R109. (Rests on
43_receive_buffer.md.) -/
def Obligations.LoadOrderIsImmaterial : Prop :=
  ∀ (s : State) (bs : List (Byte × Byte)) (n : Half) (p : Bool) (ops : List Instr),
    Memory.wf s.rxbuf = true → (bs.map Prod.fst).Nodup → n.toNat ≤ 256 →
    ops.Perm (.rxl n p :: bs.map (fun xb => .rxb xb.1 xb.2)) →
    ∃ t, s.runWords (ops.map encode) = .next t ∧
      s.runWords ((.rxl n p :: bs.map (fun xb => Instr.rxb xb.1 xb.2)).map encode) = .next t

/-- For every instruction whose exec gives a next state: the host's side is unchanged; ADDR_OUT changes only under
MKADDR; TXBUF and TXLEN only under the three builds; CHK_OK only under VCHK; the five status registers only under
PSTAT and RXRESP; RXLEN and RXPRES only under RXL with a length up to 256; and every receive byte other than the one
at RXB's index reads as before. ERR may change under all. Derived by the spec in R38. (Rests on 10_state.md section
6.) -/
def Obligations.WriteSets : Prop :=
  ∀ (i : Instr) (s t : State), exec i s = .next t →
    (t.pending = s.pending ∧ t.position = s.position ∧ t.replies = s.replies ∧ t.resets = s.resets) ∧
    ((∀ a b, i ≠ .mkaddr a b) → t.addrOut = s.addrOut) ∧
    ((∀ a c, i ≠ .build0 a c) → (∀ a c d, i ≠ .build1 a c d) → (∀ a c v, i ≠ .build2 a c v) →
      t.txbuf = s.txbuf ∧ t.txlen = s.txlen) ∧
    (i ≠ .vchk → t.chkOk = s.chkOk) ∧
    (i ≠ .pstat → i ≠ .rxresp → t.stValid = s.stValid ∧ t.stAddr = s.stAddr ∧ t.stCmd = s.stCmd ∧
      t.stLock = s.stLock ∧ t.stOcc = s.stOcc) ∧
    ((∀ n p, i = .rxl n p → 256 < n.toNat) → t.rxlen = s.rxlen ∧ t.rxpres = s.rxpres) ∧
    ∀ j, (∀ x b, i = .rxb x b → j ≠ x.toNat) → t.rxByte j = s.rxByte j

/-- MKADDR, the builds, VCHK and RXB always end with ERR 0; RXL with 8 above 256 and 0 otherwise; PSTAT with 0 to 4;
RXRESP with 0 or 2 to 6; a wire byte with 8. So code 7 is never written. Each of codes 1 to 4 occurs under PSTAT and
each of 2 to 6 under RXRESP. Derived by the spec in R100 and R111 for the nine operations. The clause for the eleven
wire bytes is the model's reading, log entry 1 (DEDUCED): the spec's rules on error codes say nothing of a wire byte,
and its word at the operation port is Illegal. (Rests on 60_exceptions.md section 1.) -/
def Obligations.ErrorCodesPerInstruction : Prop :=
  (∀ (i : Instr) (s : State), ∃ t, exec i s = .next t ∧
    match i with
    | .mkaddr _ _ | .build0 _ _ | .build1 _ _ _ | .build2 _ _ _ | .vchk | .rxb _ _ => t.err = 0#4
    | .rxl n _ => t.err = if 256 < n.toNat then 8#4 else 0#4
    | .pstat => t.err ∈ [0#4, 1#4, 2#4, 3#4, 4#4]
    | .rxresp => t.err ∈ [0#4, 2#4, 3#4, 4#4, 5#4, 6#4]
    | .getStatus | .unlockOne | .getAllBus | .unlockAll | .statusSingle | .statusAll | .setUnlockTime | .unlockTime
    | .setDelayOrBaud | .stx | .etx => t.err = 8#4) ∧
  (∀ e ∈ [1#4, 2#4, 3#4, 4#4], ∃ s t, exec .pstat s = .next t ∧ t.err = e) ∧
  ∀ e ∈ [2#4, 3#4, 4#4, 5#4, 6#4], ∃ s t, exec .rxresp s = .next t ∧ t.err = e

/-- For every instruction and state, the next state is the same whatever ERR held before: an earlier error leaves no
trace. (Rests on 60_exceptions.md section 2.) -/
def Obligations.ErrIsOverwrittenNeverRead : Prop :=
  ∀ (i : Instr) (s : State) (e : BitVec 4), ∃ t, exec i s = .next t ∧ exec i { s with err := e } = .next t

/-- Two states whose block registers agree (R13; the receive buffer compared byte by byte as the block reads it),
whatever their hosts' sides hold, have next states whose block registers agree, for every instruction: there is no
hidden state. (Rests on 10_state.md section 1, 10_state.md section 5.) -/
def Obligations.ResultsDependOnBlockRegistersOnly : Prop :=
  ∀ (i : Instr) (s u : State), s.SameBlock u →
    ∃ s' u', exec i s = .next s' ∧ exec i u = .next u' ∧ s'.SameBlock u'

/-- A source statement assembles exactly when its operands are in range, and then every word it assembles to decodes,
under R61, to the operation it stands for, in order. The spec states the ranges of the nine operations and of RXFRAME
(R73, R75). For GETSTAT, UNLOCK and UNLOCKALL it states none: refusing an operand above 255 there is the model's
choice, log entry 10 (DEDUCED). (Rests on 30_encoding.md Part C.) -/
def Obligations.AssembledCodeIsLegal : Prop :=
  ∀ src : Source,
    (src.wellFormed = false → assemble src = none) ∧
    (src.wellFormed = true →
      ∃ words, assemble src = some words ∧ words.map decodeOperation = (expand src).map Decoded.op)

/-- For control unit and door numbers up to 255: GETSTAT cu, door assembles like BUILD0 of ((cu & 0xF) << 4) | (door &
0xF) and 0x30, UNLOCK likewise with 0x31, and UNLOCKALL cu like BUILD0 of (cu & 0xF) << 4 and 0x33. Opcodes and shape
are the spec's own decision D19; the operand range is the model's choice, log entry 10. (Rests on 30_encoding.md Part
C.) -/
def Obligations.CommandPseudoInstructions : Prop :=
  ∀ cu door : Nat, cu ≤ 255 → door ≤ 255 →
    (∃ w, assemble (.getstat cu door) = some [w] ∧
      assemble (.build0 (((cu &&& 0xF) <<< 4) ||| (door &&& 0xF)) 0x30) = some [w]) ∧
    (∃ w, assemble (.unlock cu door) = some [w] ∧
      assemble (.build0 (((cu &&& 0xF) <<< 4) ||| (door &&& 0xF)) 0x31) = some [w]) ∧
    (∃ w, assemble (.unlockall cu) = some [w] ∧ assemble (.build0 ((cu &&& 0xF) <<< 4) 0x33) = some [w])
end

