-- ==== Sys2Proof/Laws/Decode.lean ====
section
/-! SUPPORT. The fields of an operation word, and a word from its fields (R53). -/

namespace Sys2Proof

/-- Bit `i` of an operation word, by the field it stands in (R53). -/
theorem operationWord_getLsbD (opc a b h l : Byte) (i : Nat) :
    (operationWord opc a b h l).getLsbD i =
      if i < 8 then l.getLsbD i else if i < 16 then h.getLsbD (i - 8) else if i < 24 then b.getLsbD (i - 16)
      else if i < 32 then a.getLsbD (i - 24) else if i < 56 then false else opc.getLsbD (i - 56) := by
  simp only [operationWord, BitVec.getLsbD_append, BitVec.getLsbD_zero]
  split_ifs <;> first | rfl | omega

section fields

variable (opc a b h l : Byte)

@[simp] theorem opcField_operationWord : opcField (operationWord opc a b h l) = opc := by
  ext i hi
  simp only [opcField, BitVec.getElem_extractLsb', operationWord_getLsbD]
  split_ifs <;> first | omega | simp [BitVec.getLsbD_eq_getElem, hi]

@[simp] theorem rsvField_operationWord : rsvField (operationWord opc a b h l) = 0#24 := by
  ext i hi
  simp only [rsvField, BitVec.getElem_extractLsb', operationWord_getLsbD]
  split_ifs <;> first | omega | simp

@[simp] theorem aField_operationWord : aField (operationWord opc a b h l) = a := by
  ext i hi
  simp only [aField, BitVec.getElem_extractLsb', operationWord_getLsbD]
  split_ifs <;> first | omega | simp [BitVec.getLsbD_eq_getElem, hi]

@[simp] theorem bField_operationWord : bField (operationWord opc a b h l) = b := by
  ext i hi
  simp only [bField, BitVec.getElem_extractLsb', operationWord_getLsbD]
  split_ifs <;> first | omega | simp [BitVec.getLsbD_eq_getElem, hi]

@[simp] theorem hField_operationWord : hField (operationWord opc a b h l) = h := by
  ext i hi
  simp only [hField, BitVec.getElem_extractLsb', operationWord_getLsbD]
  split_ifs <;> first | omega | simp [BitVec.getLsbD_eq_getElem, hi]

@[simp] theorem lField_operationWord : lField (operationWord opc a b h l) = l := by
  ext i hi
  simp only [lField, BitVec.getElem_extractLsb', operationWord_getLsbD]
  split_ifs <;> first | omega | simp [BitVec.getLsbD_eq_getElem, hi]

end fields

/-- A word whose `RSV` is zero is the operation word of its fields (R53). -/
theorem operationWord_fields (w : Word) (hw : rsvField w = 0#24) :
    operationWord (opcField w) (aField w) (bField w) (hField w) (lField w) = w := by
  have hr : ∀ i, i < 24 → w.getLsbD (32 + i) = false := fun i hi => by
    have := congrArg (fun v : BitVec 24 => v.getLsbD i) hw
    simpa [rsvField, BitVec.getLsbD_extractLsb', hi] using this
  apply BitVec.eq_of_getLsbD_eq
  intro i hi
  simp only [operationWord_getLsbD, opcField, aField, bField, hField, lField, BitVec.getLsbD_extractLsb']
  split_ifs with h1 h2 h3 h4 h5
  · simp [h1]
  · simp [show i - 8 < 8 by omega, show 8 + (i - 8) = i by omega]
  · simp [show i - 16 < 8 by omega, show 16 + (i - 16) = i by omega]
  · simp [show i - 24 < 8 by omega, show 24 + (i - 24) = i by omega]
  · have := hr (i - 32) (by omega)
    rw [show 32 + (i - 32) = i by omega] at this
    exact this.symm
  · simp [show i - 56 < 8 by omega, show 56 + (i - 56) = i by omega]

/-- A 16-bit value is its high byte over its low byte (R56). -/
theorem half_append (v : Half) : v.extractLsb' 8 8 ++ v.extractLsb' 0 8 = v := by
  apply BitVec.eq_of_getLsbD_eq
  intro i hi
  simp only [BitVec.getLsbD_append, BitVec.getLsbD_extractLsb']
  split_ifs with h1
  · simp [h1]
  · simp [show i - 8 < 8 by omega, show 8 + (i - 8) = i by omega]

/-- The operation decoder on an operation word reads its fields (R61). -/
theorem decodeOperation_operationWord (opc a b h l : Byte) :
    decodeOperation (operationWord opc a b h l) = decodeFields opc a b h l := by
  simp [decodeOperation]

/-- What R61 reads from a legal word, the decoder of the whole table reads (log entry 1). -/
theorem decode_of_operation {w : Word} {i : Instr} (h : decodeOperation w = .op i) : decode w = .op i := by
  simp [decode, h]

/-- All that `decode` can read from a word R61 calls Illegal: Illegal again, or the table's one-byte row of that value. -/
theorem decode_of_illegal {w : Word} {why : Illegal} (h : decodeOperation w = .illegal why) :
    decode w = .illegal why ∨ ∃ i, decode w = .op i ∧ decodeWire (lField w) = some i := by
  simp only [decode, h]
  split
  · split
    · rename_i i hi
      exact .inr ⟨i, rfl, hi⟩
    · exact .inl rfl
  · exact .inl rfl

end Sys2Proof
end

