-- ==== Sys2Proof/Laws/State.lean ====
section
/-! SUPPORT. One lemma per field per named update of the state, so that no proof unfolds a record update. A lemma says
either what the update writes into the field or that it leaves the field as it was. -/

namespace Sys2Proof.Machine

variable (s : State)

/-! ### `raise` -/

@[simp] theorem State.raise_rxbuf (e : ErrorKind) : (s.raise e).rxbuf = s.rxbuf := rfl
@[simp] theorem State.raise_rxlen (e : ErrorKind) : (s.raise e).rxlen = s.rxlen := rfl
@[simp] theorem State.raise_rxpres (e : ErrorKind) : (s.raise e).rxpres = s.rxpres := rfl
@[simp] theorem State.raise_txbuf (e : ErrorKind) : (s.raise e).txbuf = s.txbuf := rfl
@[simp] theorem State.raise_txlen (e : ErrorKind) : (s.raise e).txlen = s.txlen := rfl
@[simp] theorem State.raise_addrOut (e : ErrorKind) : (s.raise e).addrOut = s.addrOut := rfl
@[simp] theorem State.raise_chkOk (e : ErrorKind) : (s.raise e).chkOk = s.chkOk := rfl
@[simp] theorem State.raise_stValid (e : ErrorKind) : (s.raise e).stValid = s.stValid := rfl
@[simp] theorem State.raise_stAddr (e : ErrorKind) : (s.raise e).stAddr = s.stAddr := rfl
@[simp] theorem State.raise_stCmd (e : ErrorKind) : (s.raise e).stCmd = s.stCmd := rfl
@[simp] theorem State.raise_stLock (e : ErrorKind) : (s.raise e).stLock = s.stLock := rfl
@[simp] theorem State.raise_stOcc (e : ErrorKind) : (s.raise e).stOcc = s.stOcc := rfl
@[simp] theorem State.raise_err (e : ErrorKind) : (s.raise e).err = e.code := rfl
@[simp] theorem State.raise_pending (e : ErrorKind) : (s.raise e).pending = s.pending := rfl
@[simp] theorem State.raise_position (e : ErrorKind) : (s.raise e).position = s.position := rfl
@[simp] theorem State.raise_replies (e : ErrorKind) : (s.raise e).replies = s.replies := rfl
@[simp] theorem State.raise_resets (e : ErrorKind) : (s.raise e).resets = s.resets := rfl

/-! ### `complete` -/

@[simp] theorem State.complete_rxbuf : (s.complete).rxbuf = s.rxbuf := rfl
@[simp] theorem State.complete_rxlen : (s.complete).rxlen = s.rxlen := rfl
@[simp] theorem State.complete_rxpres : (s.complete).rxpres = s.rxpres := rfl
@[simp] theorem State.complete_txbuf : (s.complete).txbuf = s.txbuf := rfl
@[simp] theorem State.complete_txlen : (s.complete).txlen = s.txlen := rfl
@[simp] theorem State.complete_addrOut : (s.complete).addrOut = s.addrOut := rfl
@[simp] theorem State.complete_chkOk : (s.complete).chkOk = s.chkOk := rfl
@[simp] theorem State.complete_stValid : (s.complete).stValid = s.stValid := rfl
@[simp] theorem State.complete_stAddr : (s.complete).stAddr = s.stAddr := rfl
@[simp] theorem State.complete_stCmd : (s.complete).stCmd = s.stCmd := rfl
@[simp] theorem State.complete_stLock : (s.complete).stLock = s.stLock := rfl
@[simp] theorem State.complete_stOcc : (s.complete).stOcc = s.stOcc := rfl
@[simp] theorem State.complete_err : (s.complete).err = 0#4 := rfl
@[simp] theorem State.complete_pending : (s.complete).pending = s.pending := rfl
@[simp] theorem State.complete_position : (s.complete).position = s.position := rfl
@[simp] theorem State.complete_replies : (s.complete).replies = s.replies := rfl
@[simp] theorem State.complete_resets : (s.complete).resets = s.resets := rfl

/-! ### `illegalOp` -/

@[simp] theorem State.illegalOp_rxbuf : (s.illegalOp).rxbuf = s.rxbuf := rfl
@[simp] theorem State.illegalOp_rxlen : (s.illegalOp).rxlen = s.rxlen := rfl
@[simp] theorem State.illegalOp_rxpres : (s.illegalOp).rxpres = s.rxpres := rfl
@[simp] theorem State.illegalOp_txbuf : (s.illegalOp).txbuf = s.txbuf := rfl
@[simp] theorem State.illegalOp_txlen : (s.illegalOp).txlen = s.txlen := rfl
@[simp] theorem State.illegalOp_addrOut : (s.illegalOp).addrOut = s.addrOut := rfl
@[simp] theorem State.illegalOp_chkOk : (s.illegalOp).chkOk = s.chkOk := rfl
@[simp] theorem State.illegalOp_stValid : (s.illegalOp).stValid = s.stValid := rfl
@[simp] theorem State.illegalOp_stAddr : (s.illegalOp).stAddr = s.stAddr := rfl
@[simp] theorem State.illegalOp_stCmd : (s.illegalOp).stCmd = s.stCmd := rfl
@[simp] theorem State.illegalOp_stLock : (s.illegalOp).stLock = s.stLock := rfl
@[simp] theorem State.illegalOp_stOcc : (s.illegalOp).stOcc = s.stOcc := rfl
@[simp] theorem State.illegalOp_err : (s.illegalOp).err = 8#4 := rfl
@[simp] theorem State.illegalOp_pending : (s.illegalOp).pending = s.pending := rfl
@[simp] theorem State.illegalOp_position : (s.illegalOp).position = s.position := rfl
@[simp] theorem State.illegalOp_replies : (s.illegalOp).replies = s.replies := rfl
@[simp] theorem State.illegalOp_resets : (s.illegalOp).resets = s.resets := rfl

/-! ### `build` -/

@[simp] theorem State.build_rxbuf (body : List Byte) : (s.build body).rxbuf = s.rxbuf := rfl
@[simp] theorem State.build_rxlen (body : List Byte) : (s.build body).rxlen = s.rxlen := rfl
@[simp] theorem State.build_rxpres (body : List Byte) : (s.build body).rxpres = s.rxpres := rfl
@[simp] theorem State.build_txlen (body : List Byte) : (s.build body).txlen = BitVec.ofNat 3 (body ++ [sum8 body]).length := rfl
@[simp] theorem State.build_addrOut (body : List Byte) : (s.build body).addrOut = s.addrOut := rfl
@[simp] theorem State.build_chkOk (body : List Byte) : (s.build body).chkOk = s.chkOk := rfl
@[simp] theorem State.build_stValid (body : List Byte) : (s.build body).stValid = s.stValid := rfl
@[simp] theorem State.build_stAddr (body : List Byte) : (s.build body).stAddr = s.stAddr := rfl
@[simp] theorem State.build_stCmd (body : List Byte) : (s.build body).stCmd = s.stCmd := rfl
@[simp] theorem State.build_stLock (body : List Byte) : (s.build body).stLock = s.stLock := rfl
@[simp] theorem State.build_stOcc (body : List Byte) : (s.build body).stOcc = s.stOcc := rfl
@[simp] theorem State.build_err (body : List Byte) : (s.build body).err = 0#4 := rfl
@[simp] theorem State.build_pending (body : List Byte) : (s.build body).pending = s.pending := rfl
@[simp] theorem State.build_position (body : List Byte) : (s.build body).position = s.position := rfl
@[simp] theorem State.build_replies (body : List Byte) : (s.build body).replies = s.replies := rfl
@[simp] theorem State.build_resets (body : List Byte) : (s.build body).resets = s.resets := rfl

/-- The transmit buffer after a build, byte by byte (R82). -/
@[simp] theorem State.build_txbuf (body : List Byte) :
    (s.build body).txbuf = #v[frameByte (body ++ [sum8 body]) 0, frameByte (body ++ [sum8 body]) 1,
      frameByte (body ++ [sum8 body]) 2, frameByte (body ++ [sum8 body]) 3, frameByte (body ++ [sum8 body]) 4,
      frameByte (body ++ [sum8 body]) 5, frameByte (body ++ [sum8 body]) 6] := rfl

/-! ### `setCheckFlag` -/

@[simp] theorem State.setCheckFlag_rxbuf (ok : Bool) : (s.setCheckFlag ok).rxbuf = s.rxbuf := rfl
@[simp] theorem State.setCheckFlag_rxlen (ok : Bool) : (s.setCheckFlag ok).rxlen = s.rxlen := rfl
@[simp] theorem State.setCheckFlag_rxpres (ok : Bool) : (s.setCheckFlag ok).rxpres = s.rxpres := rfl
@[simp] theorem State.setCheckFlag_txbuf (ok : Bool) : (s.setCheckFlag ok).txbuf = s.txbuf := rfl
@[simp] theorem State.setCheckFlag_txlen (ok : Bool) : (s.setCheckFlag ok).txlen = s.txlen := rfl
@[simp] theorem State.setCheckFlag_addrOut (ok : Bool) : (s.setCheckFlag ok).addrOut = s.addrOut := rfl
@[simp] theorem State.setCheckFlag_chkOk (ok : Bool) : (s.setCheckFlag ok).chkOk = ok := rfl
@[simp] theorem State.setCheckFlag_stValid (ok : Bool) : (s.setCheckFlag ok).stValid = s.stValid := rfl
@[simp] theorem State.setCheckFlag_stAddr (ok : Bool) : (s.setCheckFlag ok).stAddr = s.stAddr := rfl
@[simp] theorem State.setCheckFlag_stCmd (ok : Bool) : (s.setCheckFlag ok).stCmd = s.stCmd := rfl
@[simp] theorem State.setCheckFlag_stLock (ok : Bool) : (s.setCheckFlag ok).stLock = s.stLock := rfl
@[simp] theorem State.setCheckFlag_stOcc (ok : Bool) : (s.setCheckFlag ok).stOcc = s.stOcc := rfl
@[simp] theorem State.setCheckFlag_err (ok : Bool) : (s.setCheckFlag ok).err = 0#4 := rfl
@[simp] theorem State.setCheckFlag_pending (ok : Bool) : (s.setCheckFlag ok).pending = s.pending := rfl
@[simp] theorem State.setCheckFlag_position (ok : Bool) : (s.setCheckFlag ok).position = s.position := rfl
@[simp] theorem State.setCheckFlag_replies (ok : Bool) : (s.setCheckFlag ok).replies = s.replies := rfl
@[simp] theorem State.setCheckFlag_resets (ok : Bool) : (s.setCheckFlag ok).resets = s.resets := rfl

/-! ### `commitStatus` -/

@[simp] theorem State.commitStatus_rxbuf (r : StatusResult) : (s.commitStatus r).rxbuf = s.rxbuf := by cases r <;> rfl
@[simp] theorem State.commitStatus_rxlen (r : StatusResult) : (s.commitStatus r).rxlen = s.rxlen := by cases r <;> rfl
@[simp] theorem State.commitStatus_rxpres (r : StatusResult) : (s.commitStatus r).rxpres = s.rxpres := by cases r <;> rfl
@[simp] theorem State.commitStatus_txbuf (r : StatusResult) : (s.commitStatus r).txbuf = s.txbuf := by cases r <;> rfl
@[simp] theorem State.commitStatus_txlen (r : StatusResult) : (s.commitStatus r).txlen = s.txlen := by cases r <;> rfl
@[simp] theorem State.commitStatus_addrOut (r : StatusResult) : (s.commitStatus r).addrOut = s.addrOut := by cases r <;> rfl
@[simp] theorem State.commitStatus_chkOk (r : StatusResult) : (s.commitStatus r).chkOk = s.chkOk := by cases r <;> rfl
@[simp] theorem State.commitStatus_pending (r : StatusResult) : (s.commitStatus r).pending = s.pending := by cases r <;> rfl
@[simp] theorem State.commitStatus_position (r : StatusResult) : (s.commitStatus r).position = s.position := by cases r <;> rfl
@[simp] theorem State.commitStatus_replies (r : StatusResult) : (s.commitStatus r).replies = s.replies := by cases r <;> rfl
@[simp] theorem State.commitStatus_resets (r : StatusResult) : (s.commitStatus r).resets = s.resets := by cases r <;> rfl

@[simp] theorem State.commitStatus_ok_stValid (st : Status) : (s.commitStatus (.ok st)).stValid = true := rfl
@[simp] theorem State.commitStatus_ok_stAddr (st : Status) : (s.commitStatus (.ok st)).stAddr = st.addr := rfl
@[simp] theorem State.commitStatus_ok_stCmd (st : Status) : (s.commitStatus (.ok st)).stCmd = st.cmd := rfl
@[simp] theorem State.commitStatus_ok_stLock (st : Status) : (s.commitStatus (.ok st)).stLock = st.lock := rfl
@[simp] theorem State.commitStatus_ok_stOcc (st : Status) : (s.commitStatus (.ok st)).stOcc = st.occ := rfl
@[simp] theorem State.commitStatus_ok_err (st : Status) : (s.commitStatus (.ok st)).err = 0#4 := rfl
@[simp] theorem State.commitStatus_fail_stValid (e : ErrorKind) : (s.commitStatus (.fail e)).stValid = false := rfl
@[simp] theorem State.commitStatus_fail_stAddr (e : ErrorKind) : (s.commitStatus (.fail e)).stAddr = 0#8 := rfl
@[simp] theorem State.commitStatus_fail_stCmd (e : ErrorKind) : (s.commitStatus (.fail e)).stCmd = 0#8 := rfl
@[simp] theorem State.commitStatus_fail_stLock (e : ErrorKind) : (s.commitStatus (.fail e)).stLock = 0#16 := rfl
@[simp] theorem State.commitStatus_fail_stOcc (e : ErrorKind) : (s.commitStatus (.fail e)).stOcc = 0#16 := rfl
@[simp] theorem State.commitStatus_fail_err (e : ErrorKind) : (s.commitStatus (.fail e)).err = e.code := rfl

/-! ### `retire` -/

@[simp] theorem State.retire_rxbuf : (s.retire).rxbuf = s.rxbuf := rfl
@[simp] theorem State.retire_rxlen : (s.retire).rxlen = s.rxlen := rfl
@[simp] theorem State.retire_rxpres : (s.retire).rxpres = s.rxpres := rfl
@[simp] theorem State.retire_txbuf : (s.retire).txbuf = s.txbuf := rfl
@[simp] theorem State.retire_txlen : (s.retire).txlen = s.txlen := rfl
@[simp] theorem State.retire_addrOut : (s.retire).addrOut = s.addrOut := rfl
@[simp] theorem State.retire_chkOk : (s.retire).chkOk = s.chkOk := rfl
@[simp] theorem State.retire_stValid : (s.retire).stValid = s.stValid := rfl
@[simp] theorem State.retire_stAddr : (s.retire).stAddr = s.stAddr := rfl
@[simp] theorem State.retire_stCmd : (s.retire).stCmd = s.stCmd := rfl
@[simp] theorem State.retire_stLock : (s.retire).stLock = s.stLock := rfl
@[simp] theorem State.retire_stOcc : (s.retire).stOcc = s.stOcc := rfl
@[simp] theorem State.retire_err : (s.retire).err = s.err := rfl
@[simp] theorem State.retire_pending : (s.retire).pending = s.pending.tail := rfl
@[simp] theorem State.retire_position : (s.retire).position = s.position + 1 := rfl
@[simp] theorem State.retire_replies : (s.retire).replies = s.replies := rfl
@[simp] theorem State.retire_resets : (s.retire).resets = s.resets := rfl

/-! ### `answerRead` -/

@[simp] theorem State.answerRead_rxbuf (addr : Half) : (s.answerRead addr).rxbuf = s.rxbuf := rfl
@[simp] theorem State.answerRead_rxlen (addr : Half) : (s.answerRead addr).rxlen = s.rxlen := rfl
@[simp] theorem State.answerRead_rxpres (addr : Half) : (s.answerRead addr).rxpres = s.rxpres := rfl
@[simp] theorem State.answerRead_txbuf (addr : Half) : (s.answerRead addr).txbuf = s.txbuf := rfl
@[simp] theorem State.answerRead_txlen (addr : Half) : (s.answerRead addr).txlen = s.txlen := rfl
@[simp] theorem State.answerRead_addrOut (addr : Half) : (s.answerRead addr).addrOut = s.addrOut := rfl
@[simp] theorem State.answerRead_chkOk (addr : Half) : (s.answerRead addr).chkOk = s.chkOk := rfl
@[simp] theorem State.answerRead_stValid (addr : Half) : (s.answerRead addr).stValid = s.stValid := rfl
@[simp] theorem State.answerRead_stAddr (addr : Half) : (s.answerRead addr).stAddr = s.stAddr := rfl
@[simp] theorem State.answerRead_stCmd (addr : Half) : (s.answerRead addr).stCmd = s.stCmd := rfl
@[simp] theorem State.answerRead_stLock (addr : Half) : (s.answerRead addr).stLock = s.stLock := rfl
@[simp] theorem State.answerRead_stOcc (addr : Half) : (s.answerRead addr).stOcc = s.stOcc := rfl
@[simp] theorem State.answerRead_err (addr : Half) : (s.answerRead addr).err = s.err := rfl
@[simp] theorem State.answerRead_pending (addr : Half) : (s.answerRead addr).pending = s.pending.tail := rfl
@[simp] theorem State.answerRead_position (addr : Half) : (s.answerRead addr).position = s.position := rfl
@[simp] theorem State.answerRead_replies (addr : Half) : (s.answerRead addr).replies = s.replies ++ [s.readPort addr] := rfl
@[simp] theorem State.answerRead_resets (addr : Half) : (s.answerRead addr).resets = s.resets := rfl

/-! ### `applyReset` -/

@[simp] theorem State.applyReset_rxbuf : (s.applyReset).rxbuf = State.reset.rxbuf := rfl
@[simp] theorem State.applyReset_rxlen : (s.applyReset).rxlen = State.reset.rxlen := rfl
@[simp] theorem State.applyReset_rxpres : (s.applyReset).rxpres = State.reset.rxpres := rfl
@[simp] theorem State.applyReset_txbuf : (s.applyReset).txbuf = State.reset.txbuf := rfl
@[simp] theorem State.applyReset_txlen : (s.applyReset).txlen = State.reset.txlen := rfl
@[simp] theorem State.applyReset_addrOut : (s.applyReset).addrOut = State.reset.addrOut := rfl
@[simp] theorem State.applyReset_chkOk : (s.applyReset).chkOk = State.reset.chkOk := rfl
@[simp] theorem State.applyReset_stValid : (s.applyReset).stValid = State.reset.stValid := rfl
@[simp] theorem State.applyReset_stAddr : (s.applyReset).stAddr = State.reset.stAddr := rfl
@[simp] theorem State.applyReset_stCmd : (s.applyReset).stCmd = State.reset.stCmd := rfl
@[simp] theorem State.applyReset_stLock : (s.applyReset).stLock = State.reset.stLock := rfl
@[simp] theorem State.applyReset_stOcc : (s.applyReset).stOcc = State.reset.stOcc := rfl
@[simp] theorem State.applyReset_err : (s.applyReset).err = State.reset.err := rfl
@[simp] theorem State.applyReset_pending : (s.applyReset).pending = s.pending.tail := rfl
@[simp] theorem State.applyReset_position : (s.applyReset).position = s.position := rfl
@[simp] theorem State.applyReset_replies : (s.applyReset).replies = s.replies := rfl
@[simp] theorem State.applyReset_resets : (s.applyReset).resets = s.resets + 1 := rfl

/-! ### `withProgram` -/

@[simp] theorem State.withProgram_rxbuf (p : List Word) : (s.withProgram p).rxbuf = s.rxbuf := rfl
@[simp] theorem State.withProgram_rxlen (p : List Word) : (s.withProgram p).rxlen = s.rxlen := rfl
@[simp] theorem State.withProgram_rxpres (p : List Word) : (s.withProgram p).rxpres = s.rxpres := rfl
@[simp] theorem State.withProgram_txbuf (p : List Word) : (s.withProgram p).txbuf = s.txbuf := rfl
@[simp] theorem State.withProgram_txlen (p : List Word) : (s.withProgram p).txlen = s.txlen := rfl
@[simp] theorem State.withProgram_addrOut (p : List Word) : (s.withProgram p).addrOut = s.addrOut := rfl
@[simp] theorem State.withProgram_chkOk (p : List Word) : (s.withProgram p).chkOk = s.chkOk := rfl
@[simp] theorem State.withProgram_stValid (p : List Word) : (s.withProgram p).stValid = s.stValid := rfl
@[simp] theorem State.withProgram_stAddr (p : List Word) : (s.withProgram p).stAddr = s.stAddr := rfl
@[simp] theorem State.withProgram_stCmd (p : List Word) : (s.withProgram p).stCmd = s.stCmd := rfl
@[simp] theorem State.withProgram_stLock (p : List Word) : (s.withProgram p).stLock = s.stLock := rfl
@[simp] theorem State.withProgram_stOcc (p : List Word) : (s.withProgram p).stOcc = s.stOcc := rfl
@[simp] theorem State.withProgram_err (p : List Word) : (s.withProgram p).err = s.err := rfl
@[simp] theorem State.withProgram_pending (p : List Word) : (s.withProgram p).pending = p.map HostInput.issue := rfl
@[simp] theorem State.withProgram_position (p : List Word) : (s.withProgram p).position = s.position := rfl
@[simp] theorem State.withProgram_replies (p : List Word) : (s.withProgram p).replies = s.replies := rfl
@[simp] theorem State.withProgram_resets (p : List Word) : (s.withProgram p).resets = s.resets := rfl

/-! ### `withFetchWord` -/

@[simp] theorem State.withFetchWord_rxbuf (n w : Nat) : (s.withFetchWord n w).rxbuf = s.rxbuf := rfl
@[simp] theorem State.withFetchWord_rxlen (n w : Nat) : (s.withFetchWord n w).rxlen = s.rxlen := rfl
@[simp] theorem State.withFetchWord_rxpres (n w : Nat) : (s.withFetchWord n w).rxpres = s.rxpres := rfl
@[simp] theorem State.withFetchWord_txbuf (n w : Nat) : (s.withFetchWord n w).txbuf = s.txbuf := rfl
@[simp] theorem State.withFetchWord_txlen (n w : Nat) : (s.withFetchWord n w).txlen = s.txlen := rfl
@[simp] theorem State.withFetchWord_addrOut (n w : Nat) : (s.withFetchWord n w).addrOut = s.addrOut := rfl
@[simp] theorem State.withFetchWord_chkOk (n w : Nat) : (s.withFetchWord n w).chkOk = s.chkOk := rfl
@[simp] theorem State.withFetchWord_stValid (n w : Nat) : (s.withFetchWord n w).stValid = s.stValid := rfl
@[simp] theorem State.withFetchWord_stAddr (n w : Nat) : (s.withFetchWord n w).stAddr = s.stAddr := rfl
@[simp] theorem State.withFetchWord_stCmd (n w : Nat) : (s.withFetchWord n w).stCmd = s.stCmd := rfl
@[simp] theorem State.withFetchWord_stLock (n w : Nat) : (s.withFetchWord n w).stLock = s.stLock := rfl
@[simp] theorem State.withFetchWord_stOcc (n w : Nat) : (s.withFetchWord n w).stOcc = s.stOcc := rfl
@[simp] theorem State.withFetchWord_err (n w : Nat) : (s.withFetchWord n w).err = s.err := rfl
@[simp] theorem State.withFetchWord_pending (n w : Nat) : (s.withFetchWord n w).pending = .issue (BitVec.ofNat 64 (w % 2 ^ n)) :: s.pending := rfl
@[simp] theorem State.withFetchWord_position (n w : Nat) : (s.withFetchWord n w).position = s.position := rfl
@[simp] theorem State.withFetchWord_replies (n w : Nat) : (s.withFetchWord n w).replies = s.replies := rfl
@[simp] theorem State.withFetchWord_resets (n w : Nat) : (s.withFetchWord n w).resets = s.resets := rfl

end Sys2Proof.Machine
end

