-- ==== Sys2Proof/Laws/Memory.lean ====
section
/-! SUPPORT. The receive buffer as memory: a read after a write, and the canonical form that every operation keeps. -/

namespace Sys2Proof.Machine

@[simp] theorem Memory.read_nil (i : Nat) : Memory.read [] i = none := rfl

/-- A read after a write to the same index gives the byte written. -/
@[simp] theorem Memory.read_write_same (m : Memory) (i : Nat) (b : Byte) : (Memory.write m i b).read i = some b := by
  induction m with
  | nil => simp [Memory.write, Memory.read]
  | cons c m ih =>
    obtain ⟨a, d⟩ := c
    rcases Nat.lt_trichotomy i a with h | h | h
    · simp [Memory.write, Memory.read, h]
    · simp [Memory.write, Memory.read, h]
    · have h1 : ¬ i < a := by omega
      have h2 : ¬ i = a := by omega
      simp [Memory.write, Memory.read, h1, h2, Ne.symm h2, ih]

/-- A write leaves every other index alone. -/
theorem Memory.read_write_other (m : Memory) (i j : Nat) (b : Byte) (hij : j ≠ i) :
    (Memory.write m i b).read j = m.read j := by
  induction m with
  | nil => simp [Memory.write, Memory.read, Ne.symm hij]
  | cons c m ih =>
    obtain ⟨a, d⟩ := c
    rcases Nat.lt_trichotomy i a with h | h | h
    · simp [Memory.write, Memory.read, h, Ne.symm hij]
    · subst h
      simp [Memory.write, Memory.read, Ne.symm hij]
    · have h1 : ¬ i < a := by omega
      have h2 : ¬ i = a := by omega
      simp [Memory.write, Memory.read, h1, h2, ih]

/-- Every listed index of a buffer after a write is the written one or was listed before. -/
theorem Memory.mem_write {m : Memory} {i : Nat} {b : Byte} {c : Host.Cell} (h : c ∈ Memory.write m i b) :
    c = (i, b) ∨ c ∈ m := by
  induction m with
  | nil => simpa [Memory.write] using h
  | cons d m ih =>
    obtain ⟨a, e⟩ := d
    simp only [Memory.write] at h
    split at h
    · simpa using h
    · split at h
      · rcases List.mem_cons.1 h with h | h
        · exact .inl h
        · exact .inr (List.mem_cons_of_mem _ h)
      · rcases List.mem_cons.1 h with h | h
        · exact .inr (by simp [h])
        · exact (ih h).imp id (List.mem_cons_of_mem _)

/-- A write to an index of the buffer keeps the canonical form. -/
theorem Memory.wf_write {m : Memory} {i : Nat} (b : Byte) (hm : Memory.wf m = true) (hi : i < Config.rxMax) :
    Memory.wf (Memory.write m i b) = true := by
  induction m with
  | nil => simp [Memory.write, Memory.wf, hi]
  | cons d m ih =>
    obtain ⟨a, e⟩ := d
    simp only [Memory.wf, Bool.and_eq_true, decide_eq_true_eq, List.all_eq_true] at hm
    obtain ⟨⟨ha, hall⟩, hm'⟩ := hm
    simp only [Memory.write]
    split
    · rename_i h
      simp only [Memory.wf, Bool.and_eq_true, decide_eq_true_eq, List.all_eq_true]
      refine ⟨⟨hi, ?_⟩, ⟨ha, hall⟩, hm'⟩
      intro c hc
      rcases List.mem_cons.1 hc with rfl | hc
      · exact h
      · have := hall c hc
        omega
    · split
      · rename_i h
        subst h
        simp only [Memory.wf, Bool.and_eq_true, decide_eq_true_eq, List.all_eq_true]
        exact ⟨⟨hi, hall⟩, hm'⟩
      · rename_i h1 h2
        simp only [Memory.wf, Bool.and_eq_true, decide_eq_true_eq, List.all_eq_true]
        refine ⟨⟨ha, ?_⟩, ih hm'⟩
        intro c hc
        rcases Memory.mem_write hc with rfl | hc
        · show a < i
          omega
        · exact hall c hc

/-- The receive buffer after reset has the canonical form. -/
theorem State.reset_memory_wf : Memory.wf State.reset.rxbuf = true := rfl

/-- R105: the byte RXB writes is read back. -/
theorem State.rxByte_write_same (s : State) (i : Nat) (b : Byte) :
    ({ s with rxbuf := s.rxbuf.write i b } : State).rxByte i = b := by
  simp [State.rxByte]

/-- R105: RXB leaves every other byte of the receive buffer alone. -/
theorem State.rxByte_write_other (s : State) (i j : Nat) (b : Byte) (h : j ≠ i) :
    ({ s with rxbuf := s.rxbuf.write i b } : State).rxByte j = s.rxByte j := by
  simp [State.rxByte, Memory.read_write_other _ _ _ _ h]

/-- Two states with the same written bytes and the same draw read the same. -/
theorem State.rxByte_congr {s t : State} (hb : s.rxbuf = t.rxbuf) (hr : s.resets = t.resets) (i : Nat) :
    s.rxByte i = t.rxByte i := by
  simp [State.rxByte, hb, hr]

end Sys2Proof.Machine
end

