-- ==== Sys2Proof/Laws/Ops.lean ====
section
/-! SUPPORT. For each shared operation, what it can do, said once. -/

namespace Sys2Proof.Machine

/-- Ending an operation changes `ERR` only (R10, R117). -/
theorem State.raise_eq (s : State) (e : ErrorKind) : s.raise e = { s with err := e.code } := rfl

/-- Completing an operation changes `ERR` only, to NONE (R10). -/
theorem State.complete_eq (s : State) : s.complete = { s with err := 0#4 } := rfl

/-- An Illegal word changes `ERR` only, to ILLEGAL_OP (R64). -/
theorem State.illegalOp_eq (s : State) : s.illegalOp = { s with err := 8#4 } := rfl

/-- A build writes `TXBUF`, `TXLEN` and `ERR` and nothing else (R38, R82). -/
theorem State.build_frame (s : State) (body : List Byte) :
    s.build body = { s with txbuf := (s.build body).txbuf, txlen := (s.build body).txlen, err := 0#4 } := rfl

/-- VCHK's write writes `CHK_OK` and `ERR` and nothing else (R38, R89). -/
theorem State.setCheckFlag_eq (s : State) (ok : Bool) : s.setCheckFlag ok = { s with chkOk := ok, err := 0#4 } := rfl

/-- Writing a decoding: all of a Status with `ERR` = NONE, or every status register cleared with the error's code
(R93, R96). -/
theorem State.commitStatus_cases (s : State) (r : StatusResult) :
    (∃ st, r = .ok st ∧ s.commitStatus r =
      { s with stValid := true, stAddr := st.addr, stCmd := st.cmd, stLock := st.lock, stOcc := st.occ, err := 0#4 }) ∨
    (∃ e, r = .fail e ∧ s.commitStatus r =
      { s with stValid := false, stAddr := 0#8, stCmd := 0#8, stLock := 0#16, stOcc := 0#16, err := e.code }) := by
  cases r with
  | ok st => exact .inl ⟨st, rfl, rfl⟩
  | fail e => exact .inr ⟨e, rfl, rfl⟩

/-- All `decode_status` can answer: the first failing check in the order of R94, or the Status of the bytes (R93). -/
theorem decodeStatus_cases (bs : List Byte) :
    (bs.length < 9 ∧ decodeStatus bs = .fail .frameTooShort) ∨
    (9 ≤ bs.length ∧ (bs.getD 0 0#8 ≠ Config.stx ∨ bs.getD 7 0#8 ≠ Config.etx) ∧
      decodeStatus bs = .fail .badFrameMarkers) ∨
    (9 ≤ bs.length ∧ bs.getD 0 0#8 = Config.stx ∧ bs.getD 7 0#8 = Config.etx ∧ checksumMatches bs = false ∧
      decodeStatus bs = .fail .checksumMismatch) ∨
    (9 ≤ bs.length ∧ bs.getD 0 0#8 = Config.stx ∧ bs.getD 7 0#8 = Config.etx ∧ checksumMatches bs = true ∧
      isStatusOpcode (bs.getD 2 0#8) = false ∧ decodeStatus bs = .fail .unexpectedOpcode) ∨
    (9 ≤ bs.length ∧ bs.getD 0 0#8 = Config.stx ∧ bs.getD 7 0#8 = Config.etx ∧ checksumMatches bs = true ∧
      isStatusOpcode (bs.getD 2 0#8) = true ∧
      decodeStatus bs = .ok ⟨bs.getD 1 0#8, bs.getD 2 0#8, bs.getD 4 0#8 ++ bs.getD 3 0#8,
        bs.getD 6 0#8 ++ bs.getD 5 0#8⟩) := by
  unfold decodeStatus
  by_cases h1 : bs.length < Config.statusLen
  · exact .inl ⟨h1, if_pos h1⟩
  have h1' : 9 ≤ bs.length := Nat.le_of_not_lt h1
  by_cases h2 : bs.getD 0 0#8 ≠ Config.stx ∨ bs.getD 7 0#8 ≠ Config.etx
  · exact .inr (.inl ⟨h1', h2, by rw [if_neg h1, if_pos h2]⟩)
  have h2' : bs.getD 0 0#8 = Config.stx ∧ bs.getD 7 0#8 = Config.etx := by
    rw [not_or, not_not, not_not] at h2
    exact h2
  cases h3 : checksumMatches bs with
  | false => exact .inr (.inr (.inl ⟨h1', h2'.1, h2'.2, rfl, by rw [if_neg h1, if_neg h2, if_pos rfl]⟩))
  | true =>
    cases h4 : isStatusOpcode (bs.getD 2 0#8) with
    | false =>
      exact .inr (.inr (.inr (.inl ⟨h1', h2'.1, h2'.2, rfl, rfl,
        by rw [if_neg h1, if_neg h2, if_neg (by decide), if_pos rfl]⟩)))
    | true =>
      exact .inr (.inr (.inr (.inr ⟨h1', h2'.1, h2'.2, rfl, rfl,
        by rw [if_neg h1, if_neg h2, if_neg (by decide), if_neg (by decide)]⟩)))

/-- R92: the recognised opcodes. -/
theorem isStatusOpcode_iff (c : Byte) : isStatusOpcode c = true ↔ c = Config.statusSingle ∨ c = Config.statusAll := by
  simp [isStatusOpcode]

/-- The number of bytes a read of the receive buffer gives. -/
@[simp] theorem State.rxRead_length (s : State) (n : Nat) : (s.rxRead n).length = n := by simp [State.rxRead]

/-- Byte `i` of what a read of the receive buffer gives is `RXBUF[i]`. -/
theorem State.rxRead_getD (s : State) {n i : Nat} (h : i < n) : (s.rxRead n).getD i 0#8 = s.rxByte i := by
  simp [State.rxRead, List.getD, h]

/-- The bytes before the last of a read of the receive buffer. -/
theorem State.rxRead_dropLast (s : State) (n : Nat) : (s.rxRead (n + 1)).dropLast = s.rxRead n := by
  simp [State.rxRead, List.range_succ]

/-- The checksum test of a read of the receive buffer: the last byte against the sum of those before it. -/
theorem State.checksumMatches_rxRead (s : State) (n : Nat) :
    checksumMatches (s.rxRead (n + 1)) = (sum8 (s.rxRead n) == s.rxByte n) := by
  simp [checksumMatches, State.rxRead, List.range_succ]

/-- A read of the receive buffer depends only on the bytes below its length. -/
theorem State.rxRead_congr {s t : State} {n : Nat} (h : ∀ i, i < n → s.rxByte i = t.rxByte i) :
    s.rxRead n = t.rxRead n := by
  simp only [State.rxRead]
  exact List.map_congr_left fun i hi => h i (List.mem_range.1 hi)

/-- R89: what VCHK's flag says of an input. -/
theorem checkFlag_eq_true_iff (input : Option (List Byte)) :
    checkFlag input = true ↔ ∃ bs, input = some bs ∧ 5 ≤ bs.length ∧ checksumMatches bs = true := by
  cases input with
  | none => simp [checkFlag]
  | some bs =>
    by_cases h : bs.length < 5
    · simp [checkFlag, h]
    · simp [checkFlag, h, Nat.le_of_not_lt h]

/-- R99: all that the response handling can give. -/
theorem State.response_cases (s : State) :
    ((s.rxpres = false ∨ s.rxlen.val = 0) ∧ s.response = .fail .noResponse) ∨
    (s.rxpres = true ∧ 1 ≤ s.rxlen.val ∧ s.rxlen.val < 9 ∧ s.response = .fail .invalidResponseLength) ∨
    (s.rxpres = true ∧ 9 ≤ s.rxlen.val ∧ s.response = decodeStatus (s.rxRead 9)) := by
  unfold State.response
  by_cases h1 : s.rxpres = false ∨ s.rxlen.val = 0
  · exact .inl ⟨h1, if_pos h1⟩
  have hp : s.rxpres = true := by
    rw [not_or, Bool.not_eq_false] at h1
    exact h1.1
  have hl : 1 ≤ s.rxlen.val := Nat.pos_of_ne_zero (not_or.1 h1).2
  by_cases h2 : s.rxlen.val < Config.statusLen
  · exact .inr (.inl ⟨hp, hl, h2, by rw [if_neg h1, if_pos h2]⟩)
  · exact .inr (.inr ⟨hp, Nat.le_of_not_lt h2, by rw [if_neg h1, if_neg h2]⟩)

/-- R73: what an assembled statement is. -/
theorem assemble_eq_some_iff (src : Source) (ws : List Word) :
    assemble src = some ws ↔ src.wellFormed = true ∧ (expand src).map encode = ws := by
  cases h : src.wellFormed <;> simp [assemble, h]

/-- R80: a byte put in front adds its value to the sum. -/
theorem sum8_cons (b : Byte) (bs : List Byte) : sum8 (b :: bs) = b + sum8 bs := by
  simp [sum8, BitVec.ofNat_add]

/-- R81: the sum of nothing is 0. -/
@[simp] theorem sum8_nil : sum8 [] = 0#8 := rfl

end Sys2Proof.Machine
end

