-- ==== Sys2Proof/Laws/PerInstr.lean ====
section
/-! SUPPORT. A statement about every instruction as syntax: its encoding agrees with its row's match under its row's
mask (R61), with every reserved field zero (R60, R73). -/

namespace Sys2Proof.Laws

/-- The match and mask of an instruction's row in the opcode table. A one-byte row stands in a word whose other bits
are 0. -/
def rowOf : Instr → Word × Word
  | .mkaddr _ _ => (0x0100000000000000#64, 0xFFFFFFFF0000FFFF#64)
  | .build0 _ _ => (0x0200000000000000#64, 0xFFFFFFFF0000FFFF#64)
  | .build1 _ _ _ => (0x0300000000000000#64, 0xFFFFFFFF0000FF00#64)
  | .build2 _ _ _ => (0x0400000000000000#64, 0xFFFFFFFF00000000#64)
  | .vchk => (0x0500000000000000#64, 0xFFFFFFFFFFFFFFFF#64)
  | .pstat => (0x0600000000000000#64, 0xFFFFFFFFFFFFFFFF#64)
  | .rxresp => (0x0700000000000000#64, 0xFFFFFFFFFFFFFFFF#64)
  | .rxb _ _ => (0x0800000000000000#64, 0xFFFFFFFF00FFFF00#64)
  | .rxl _ _ => (0x0900000000000000#64, 0xFFFFFFFFFFFE0000#64)
  | .getStatus => (0x30#64, 0xFFFFFFFFFFFFFFFF#64)
  | .unlockOne => (0x31#64, 0xFFFFFFFFFFFFFFFF#64)
  | .getAllBus => (0x32#64, 0xFFFFFFFFFFFFFFFF#64)
  | .unlockAll => (0x33#64, 0xFFFFFFFFFFFFFFFF#64)
  | .statusSingle => (0x35#64, 0xFFFFFFFFFFFFFFFF#64)
  | .statusAll => (0x36#64, 0xFFFFFFFFFFFFFFFF#64)
  | .setUnlockTime => (0x37#64, 0xFFFFFFFFFFFFFFFF#64)
  | .unlockTime => (0x38#64, 0xFFFFFFFFFFFFFFFF#64)
  | .setDelayOrBaud => (0x39#64, 0xFFFFFFFFFFFFFFFF#64)
  | .stx => (0x02#64, 0xFFFFFFFFFFFFFFFF#64)
  | .etx => (0x03#64, 0xFFFFFFFFFFFFFFFF#64)

/-- The family: the encoding of an instruction matches its row. -/
def EncodesInRow.Statement (i : Instr) : Prop := encode i &&& (rowOf i).2 = (rowOf i).1

/-- A bitwise AND acts on the two parts of a concatenation separately. -/
theorem append_and_append {m n : Nat} (x y : BitVec m) (u v : BitVec n) :
    (x ++ u) &&& (y ++ v) = (x &&& y) ++ (u &&& v) := by
  ext i
  simp only [BitVec.getElem_and, BitVec.getElem_append]
  split <;> rfl

/-- An operation word under a mask of whole fields is the operation word of the masked fields. -/
theorem operationWord_and (opc a b h l ma mb mh ml : Byte) :
    operationWord opc a b h l &&& (0xFF#8 ++ 0xFFFFFF#24 ++ ma ++ mb ++ mh ++ ml) =
      operationWord opc (a &&& ma) (b &&& mb) (h &&& mh) (l &&& ml) := by
  have hopc : opc &&& 0xFF#8 = opc := BitVec.and_allOnes
  have hand := append_and_append (opc ++ 0#24 ++ a ++ b ++ h) (0xFF#8 ++ 0xFFFFFF#24 ++ ma ++ mb ++ mh) l ml
  simp only [append_and_append (opc ++ 0#24 ++ a ++ b), append_and_append (opc ++ 0#24 ++ a),
    append_and_append (opc ++ 0#24), append_and_append opc, hopc, BitVec.zero_and] at hand
  exact hand

/-- A field under a mask of ones is the field. -/
theorem and_ones (a : Byte) : a &&& 0xFF#8 = a := BitVec.and_allOnes

/-- A field under a mask of zeros is zero. -/
theorem and_zeros (a : Byte) : a &&& 0x00#8 = 0#8 := BitVec.and_zero

namespace EncodesInRow

theorem mkaddr (a b : Byte) : Statement (.mkaddr a b) := by
  have h := operationWord_and 0x01#8 a b 0#8 0#8 0x00#8 0x00#8 0xFF#8 0xFF#8
  rw [and_zeros, and_zeros, and_ones] at h
  exact h

theorem build0 (a b : Byte) : Statement (.build0 a b) := by
  have h := operationWord_and 0x02#8 a b 0#8 0#8 0x00#8 0x00#8 0xFF#8 0xFF#8
  rw [and_zeros, and_zeros, and_ones] at h
  exact h

theorem build1 (a b d : Byte) : Statement (.build1 a b d) := by
  have h := operationWord_and 0x03#8 a b 0#8 d 0x00#8 0x00#8 0xFF#8 0x00#8
  rw [and_zeros, and_zeros, and_ones, and_zeros] at h
  exact h

theorem build2 (a b : Byte) (v : Half) : Statement (.build2 a b v) := by
  have h := operationWord_and 0x04#8 a b (v.extractLsb' 8 8) (v.extractLsb' 0 8) 0x00#8 0x00#8 0x00#8 0x00#8
  rw [and_zeros, and_zeros, and_zeros, and_zeros] at h
  exact h

theorem vchk : Statement .vchk := by unfold Statement; decide

theorem pstat : Statement .pstat := by unfold Statement; decide

theorem rxresp : Statement .rxresp := by unfold Statement; decide

theorem rxb (i b : Byte) : Statement (.rxb i b) := by
  have h := operationWord_and 0x08#8 i 0#8 0#8 b 0x00#8 0xFF#8 0xFF#8 0x00#8
  rw [and_zeros, and_ones, and_zeros] at h
  exact h

theorem rxl (n : Half) (p : Bool) : Statement (.rxl n p) := by
  have h := operationWord_and 0x09#8 0#8 (0#7 ++ BitVec.ofBool p) (n.extractLsb' 8 8) (n.extractLsb' 0 8)
    0xFF#8 0xFE#8 0x00#8 0x00#8
  rw [and_ones, and_zeros, and_zeros, show (0#7 ++ BitVec.ofBool p) &&& 0xFE#8 = 0#8 by cases p <;> rfl] at h
  exact h

theorem getStatus : Statement .getStatus := by unfold Statement; decide

theorem unlockOne : Statement .unlockOne := by unfold Statement; decide

theorem getAllBus : Statement .getAllBus := by unfold Statement; decide

theorem unlockAll : Statement .unlockAll := by unfold Statement; decide

theorem statusSingle : Statement .statusSingle := by unfold Statement; decide

theorem statusAll : Statement .statusAll := by unfold Statement; decide

theorem setUnlockTime : Statement .setUnlockTime := by unfold Statement; decide

theorem unlockTime : Statement .unlockTime := by unfold Statement; decide

theorem setDelayOrBaud : Statement .setDelayOrBaud := by unfold Statement; decide

theorem stx : Statement .stx := by unfold Statement; decide

theorem etx : Statement .etx := by unfold Statement; decide

end EncodesInRow

end Sys2Proof.Laws
end

