-- ==== Sys2Proof/Laws/Step.lean ====
section
/-! SUPPORT. What a step can do, said once; every property of a step is a case analysis over it. -/

namespace Sys2Proof.Machine

/-- All that a step which answers a next state can have done: nothing to do, an operation, an Illegal word, a read, or
a reset. -/
theorem step_cases {s t : State} (h : step s = .next t) :
    (s.pending = [] ∧ t = s) ∨
    (∃ w rest i u, s.pending = .issue w :: rest ∧ decode w = .op i ∧ exec i s = .next u ∧ t = u.retire) ∨
    (∃ w rest why, s.pending = .issue w :: rest ∧ decode w = .illegal why ∧ t = s.illegalOp.retire) ∨
    (∃ a rest, s.pending = .read a :: rest ∧ t = s.answerRead a) ∨
    (∃ rest, s.pending = .reset :: rest ∧ t = s.applyReset) := by
  unfold step at h
  split at h
  · rename_i hp
    cases h
    exact .inl ⟨hp, rfl⟩
  · rename_i w rest hp
    split at h
    · rename_i i hi
      split at h
      · rename_i u hu
        cases h
        exact .inr (.inl ⟨w, rest, i, u, hp, hi, hu, rfl⟩)
      · cases h
      · cases h
    · rename_i why hi
      cases h
      exact .inr (.inr (.inl ⟨w, rest, why, hp, hi, rfl⟩))
  · rename_i a rest hp
    cases h
    exact .inr (.inr (.inr (.inl ⟨a, rest, hp, rfl⟩)))
  · rename_i rest hp
    cases h
    exact .inr (.inr (.inr (.inr ⟨rest, hp, rfl⟩)))

/-- The two forms of RXL (R106). -/
theorem execRxl_cases (n : Half) (p : Bool) (s : State) :
    (∃ h : n.toNat < 257, execRxl n p s = .next { s with rxlen := ⟨n.toNat, h⟩, rxpres := p, err := 0#4 }) ∨
    (256 < n.toNat ∧ execRxl n p s = .next { s with err := 8#4 }) := by
  unfold execRxl
  split
  · rename_i h
    exact .inl ⟨h, rfl⟩
  · rename_i h
    exact .inr ⟨by omega, rfl⟩

end Sys2Proof.Machine
end

