-- ==== Sys2Proof/Tests/Slice0.lean ====
section
/-! SUPPORT. Tests of one step each and the witnesses of the statements. Expected values come from the worked examples
and vectors of the spec (E1 to E5, V1 to V8, P1), named beside each test, or from a rule's own corner case. -/

namespace Sys2Proof.Tests

open Sys2Proof Sys2Proof.Machine

/-! ### Helpers -/

/-- The next state of an outcome, or the reset state with an unused error code where there is none. -/
def after : Host.Outcome State Fault Refusal → State
  | .next t => t
  | _ => { State.reset with err := 15#4 }

/-- A state that has received the bytes, `n` of them declared, present. -/
def received (bs : List Byte) (n : Fin 257) : State :=
  { State.reset with rxbuf := (List.range bs.length).zip bs, rxlen := n, rxpres := true }

/-- The Status frame of E4. -/
def frameE4 : List Byte := [0x02#8, 0x01#8, 0x35#8, 0xFF#8, 0x00#8, 0x00#8, 0xFF#8, 0x03#8, 0x39#8]

/-- The Status frame of V4.2. -/
def frameV42 : List Byte := [0x02#8, 0x13#8, 0x35#8, 0xF7#8, 0xFF#8, 0x08#8, 0x00#8, 0x03#8, 0x4B#8]

/-- The state that has received E4's frame. -/
def gotE4 : State := received frameE4 9

/-- The status registers, `ST_VALID` and `ERR` of a state. -/
def status (s : State) : Bool × Byte × Byte × Half × Half × BitVec 4 :=
  (s.stValid, s.stAddr, s.stCmd, s.stLock, s.stOcc, s.err)

/-- Why R61 refuses a word, if it does. -/
def refusal (w : Word) : Option Illegal :=
  match decodeOperation w with
  | .op _ => none
  | .illegal why => some why

/-- Reset with one input to come. -/
def withInput (i : HostInput) : State := { State.reset with pending := [i] }

/-! ### Decoding: words written out from the encoding (R53, R55, R63; V1 to V7) -/

theorem test_decode_mkaddr : decodeOperation 0x010000001F2A0000#64 = .op (.mkaddr 0x1F#8 0x2A#8) := by decide
theorem test_decode_build0 : decodeOperation 0x0200000001300000#64 = .op (.build0 0x01#8 0x30#8) := by decide
theorem test_decode_build1 : decodeOperation 0x0300000013390005#64 = .op (.build1 0x13#8 0x39#8 0x05#8) := by decide
theorem test_decode_build2 : decodeOperation 0x0400000013371234#64 = .op (.build2 0x13#8 0x37#8 0x1234#16) := by decide
theorem test_decode_build2_edge :
    decodeOperation 0x04000000FFFFFFFF#64 = .op (.build2 0xFF#8 0xFF#8 0xFFFF#16) := by decide
theorem test_decode_vchk : decodeOperation 0x0500000000000000#64 = .op .vchk := by decide
theorem test_decode_pstat : decodeOperation 0x0600000000000000#64 = .op .pstat := by decide
theorem test_decode_rxresp : decodeOperation 0x0700000000000000#64 = .op .rxresp := by decide
theorem test_decode_rxb : decodeOperation 0x08000000FF0000AA#64 = .op (.rxb 0xFF#8 0xAA#8) := by decide
theorem test_decode_rxl : decodeOperation 0x0900000000010100#64 = .op (.rxl 0x0100#16 true) := by decide
theorem test_decode_rxl_absent : decodeOperation 0x0900000000000009#64 = .op (.rxl 9#16 false) := by decide
theorem test_decode_rxl_too_long : decodeOperation 0x090000000001FFFF#64 = .op (.rxl 0xFFFF#16 true) := by decide

/-- V7.1 to V7.15: the reserved codes, the reserved bits, and every kind of reserved operand field. -/
theorem test_decode_illegal :
    [0x0000000000000000#64, 0x0A00000000000000#64, 0xFF00000000000000#64].map refusal =
      List.replicate 3 (some .reservedCode) ∧
    [0xFFFFFFFFFFFFFFFF#64, 0x0100000100000000#64, 0x0600000100000000#64].map refusal =
      List.replicate 3 (some .reservedBits) ∧
    [0x0100000001030001#64, 0x0200000001300100#64, 0x0300000013390105#64, 0x0500000000000001#64, 0x0700000000010000#64,
      0x0800000007010003#64, 0x0800000007000103#64, 0x0900000001010009#64, 0x0900000000030009#64].map refusal =
      List.replicate 9 (some .reservedOperand) := by decide

/-- The one-byte rows (R66), and that R61 calls their words Illegal. -/
theorem test_decode_wire :
    [0x30, 0x31, 0x32, 0x33, 0x35, 0x36, 0x37, 0x38, 0x39, 0x02, 0x03].map (decodeTableWord 8) =
      [some .getStatus, some .unlockOne, some .getAllBus, some .unlockAll, some .statusSingle, some .statusAll,
        some .setUnlockTime, some .unlockTime, some .setDelayOrBaud, some .stx, some .etx] ∧
    [0x30#64, 0x39#64, 0x02#64, 0x03#64].map refusal = List.replicate 4 (some .reservedCode) ∧
    decodeTableWord 8 0x34 = none := by decide

theorem test_decode_table_word : decodeTableWord 64 0x0100000001030000 = some (.mkaddr 1#8 3#8) := by decide

/-! ### Well-formedness: an ill-formed term for each check -/

theorem test_wf_wire_byte_is_no_operation : Instr.wellFormed .getStatus = false ∧ Instr.wellFormed .stx = false := by
  decide
theorem test_wf_mkaddr : Source.wellFormed (.mkaddr 256 0) = false ∧ Source.wellFormed (.mkaddr 0 256) = false := by
  decide
theorem test_wf_build0 : Source.wellFormed (.build0 256 0) = false ∧ Source.wellFormed (.build0 0 256) = false := by
  decide
theorem test_wf_build1 : Source.wellFormed (.build1 256 0 0) = false ∧ Source.wellFormed (.build1 0 256 0) = false ∧
    Source.wellFormed (.build1 0 0 256) = false := by decide
theorem test_wf_build2 : Source.wellFormed (.build2 256 0 0) = false ∧ Source.wellFormed (.build2 0 256 0) = false ∧
    Source.wellFormed (.build2 0 0 65536) = false := by decide
theorem test_wf_rxb : Source.wellFormed (.rxb 256 0) = false ∧ Source.wellFormed (.rxb 0 256) = false := by decide
theorem test_wf_rxl : Source.wellFormed (.rxl 65536 0) = false ∧ Source.wellFormed (.rxl 0 2) = false := by decide
theorem test_wf_command : Source.wellFormed (.getstat 256 0) = false ∧ Source.wellFormed (.getstat 0 256) = false ∧
    Source.wellFormed (.unlock 256 0) = false ∧ Source.wellFormed (.unlock 0 256) = false ∧
    Source.wellFormed (.unlockall 256) = false := by decide
theorem test_wf_rxframe_byte : Source.wellFormed (.rxframe [0, 256]) = false := by decide
theorem wellFormed_rxframe (bs : List Nat) :
    Source.wellFormed (.rxframe bs) = (bs.all isByte && decide (bs.length ≤ Config.rxMax)) := rfl

theorem test_wf_rxframe_length (bs : List Nat) (h : bs.length = 257) : Source.wellFormed (.rxframe bs) = false := by
  rw [wellFormed_rxframe, h]
  exact Bool.and_false _

theorem test_wf_edges : Source.wellFormed (.build2 255 255 65535) = true ∧ Source.wellFormed (.rxl 65535 1) = true := by
  decide

/-! ### One step of each operation -/

/-- V1.5: both operands are masked. -/
theorem test_mkaddr_masks : (after (exec (.mkaddr 0x1F#8 0x2A#8) State.reset)).addrOut = 0xFA#8 := by decide
/-- V1.4: control unit 16 is unit 0, and no error. -/
theorem test_mkaddr_sixteen :
    (after (exec (.mkaddr 0x10#8 0x00#8) { State.reset with err := 8#4 })).addrOut = 0x00#8 ∧
    (after (exec (.mkaddr 0x10#8 0x00#8) { State.reset with err := 8#4 })).err = 0#4 := by decide
/-- E3. -/
theorem test_build0 : (after (exec (.build0 0x01#8 0x30#8) State.reset)).txbuf =
    #v[0x02#8, 0x01#8, 0x30#8, 0x03#8, 0x36#8, 0x00#8, 0x00#8] := by decide
/-- V2.20: the bytes of a longer frame are cleared. -/
theorem test_build0_clears :
    (after (exec (.build0 0x01#8 0x30#8) (after (exec (.build2 0x13#8 0x37#8 0x1234#16) State.reset)))).txbuf =
      #v[0x02#8, 0x01#8, 0x30#8, 0x03#8, 0x36#8, 0x00#8, 0x00#8] := by decide
/-- V2.11: the sum wraps. -/
theorem test_build1_wraps : (after (exec (.build1 0xFF#8 0xFF#8 0xFF#8) State.reset)).txbuf =
    #v[0x02#8, 0xFF#8, 0xFF#8, 0xFF#8, 0x03#8, 0x02#8, 0x00#8] := by decide
/-- V2.14: the low byte goes first. -/
theorem test_build2_order : (after (exec (.build2 0x13#8 0x37#8 0x1234#16) State.reset)).txbuf =
    #v[0x02#8, 0x13#8, 0x37#8, 0x34#8, 0x12#8, 0x03#8, 0x95#8] := by decide
/-- The lengths after V2.1, V2.9 and V2.14. -/
theorem test_build_lengths :
    (after (exec (.build0 0x01#8 0x30#8) State.reset)).txlen = 5#3 ∧
    (after (exec (.build1 0x13#8 0x39#8 0x05#8) State.reset)).txlen = 6#3 ∧
    (after (exec (.build2 0x13#8 0x37#8 0x1234#16) State.reset)).txlen = 7#3 := by decide
/-- V3.1, V3.2, V3.6. -/
theorem test_vchk :
    (after (exec .vchk (received [0x02#8, 0x01#8, 0x30#8, 0x03#8, 0x36#8] 5))).chkOk = true ∧
    (after (exec .vchk (received [0x02#8, 0x01#8, 0x30#8, 0x03#8, 0x37#8] 5))).chkOk = false ∧
    (after (exec .vchk (received [0x00#8, 0x00#8, 0x00#8, 0x00#8, 0x00#8] 5))).chkOk = true := by decide
/-- V3.3, V3.5: too short, absent. -/
theorem test_vchk_no_input :
    (after (exec .vchk { received [0x02#8, 0x01#8, 0x30#8, 0x03#8, 0x36#8] 4 with chkOk := true })).chkOk = false ∧
    (after (exec .vchk { received [0x02#8, 0x01#8, 0x30#8, 0x03#8, 0x36#8] 5 with rxpres := false })).chkOk = false := by
  decide
/-- V4.1 and V4.17: a Status of 9 bytes, and of 10 whose last byte is the sum of the rest. -/
theorem test_pstat :
    status (after (exec .pstat gotE4)) = (true, 0x01#8, 0x35#8, 0x00FF#16, 0xFF00#16, 0#4) ∧
    status (after (exec .pstat (received (frameE4 ++ [0x72#8]) 10))) =
      (true, 0x01#8, 0x35#8, 0x00FF#16, 0xFF00#16, 0#4) := by decide
/-- V4.5 to V4.13, V4.16: the first failing check is reported and clears a Status held before. -/
theorem test_pstat_fails :
    (([received frameE4 8, { gotE4 with rxpres := false },
      received [0x03#8, 0x01#8, 0x35#8, 0xFF#8, 0x00#8, 0x00#8, 0xFF#8, 0x03#8, 0x39#8] 9,
      received [0x02#8, 0x01#8, 0x35#8, 0xFF#8, 0x00#8, 0x00#8, 0xFF#8, 0x02#8, 0x39#8] 9,
      received [0x02#8, 0x01#8, 0x37#8, 0xFF#8, 0x00#8, 0x00#8, 0xFF#8, 0x03#8, 0x39#8] 9,
      received (frameE4 ++ [0x00#8]) 10,
      received [0x02#8, 0x13#8, 0x38#8, 0x00#8, 0x00#8, 0x00#8, 0x00#8, 0x03#8, 0x50#8] 9].map
        fun s => status (after (exec .pstat { s with stValid := true, stLock := 7#16 }))).map fun r =>
        (r.1, r.2.2.2.1, r.2.2.2.2.2)) =
      [(false, 0#16, 1#4), (false, 0#16, 1#4), (false, 0#16, 2#4), (false, 0#16, 2#4), (false, 0#16, 3#4),
        (false, 0#16, 3#4), (false, 0#16, 4#4)] := by decide
/-- V5.7: three bytes after the frame are ignored. -/
theorem test_rxresp : status (after (exec .rxresp (received (frameV42 ++ [0xAA#8, 0x02#8, 0x03#8]) 12))) =
    (true, 0x13#8, 0x35#8, 0xFFF7#16, 0x0008#16, 0#4) := by decide
/-- V5.1 to V5.4, V5.8 to V5.10. -/
theorem test_rxresp_fails :
    [{ gotE4 with rxpres := false }, received [] 0, received [0x02#8] 1, received frameE4 8,
      received (List.replicate 9 0x00#8) 9,
      received [0x02#8, 0x01#8, 0x35#8, 0xFF#8, 0x00#8, 0x00#8, 0xFF#8, 0x03#8, 0x38#8] 9,
      received [0x02#8, 0x13#8, 0x38#8, 0x00#8, 0x00#8, 0x00#8, 0x00#8, 0x03#8, 0x50#8] 9].map
        (fun s => (after (exec .rxresp s)).err) = [5#4, 5#4, 6#4, 6#4, 2#4, 3#4, 4#4] := by decide
/-- V6.1, V6.2: the byte is stored, in canonical order. -/
theorem test_rxb : (after (exec (.rxb 7#8 0x03#8) (after (exec (.rxb 0xFF#8 0xAA#8) State.reset)))).rxbuf =
    [(7, 0x03#8), (255, 0xAA#8)] := by decide
/-- R105: writing an index twice keeps the second byte. -/
theorem test_rxb_twice : (after (exec (.rxb 7#8 0x04#8) (after (exec (.rxb 7#8 0x03#8) State.reset)))).rxbuf =
    [(7, 0x04#8)] := by decide
/-- V6.4, V6.7. -/
theorem test_rxl : (after (exec (.rxl 256#16 true) State.reset)).rxlen = 256 ∧
    (after (exec (.rxl 9#16 false) { State.reset with rxpres := true })).rxpres = false := by decide
/-- V6.5: 257 is ILLEGAL_OP, and nothing else changes. -/
theorem test_rxl_too_long : after (exec (.rxl 257#16 false) gotE4) = { gotE4 with err := 8#4 } := by decide
/-- R59, R64: a wire byte as an operation word changes `ERR` only. -/
theorem test_wire_bytes : after (exec .getStatus gotE4) = { gotE4 with err := 8#4 } ∧
    after (exec .etx gotE4) = { gotE4 with err := 8#4 } := by decide
/-- R104: door 3 is unlocked and the only one occupied after V4.2's frame. -/
theorem test_doors :
    (List.finRange 16).filter (fun i => !(after (exec .pstat (received frameV42 9))).locked i) = [3] ∧
    (List.finRange 16).filter (fun i => (after (exec .pstat (received frameV42 9))).occupied i) = [3] := by decide

/-! ### Steps of the machine -/

/-- V7.2: a reserved word writes `ERR` and advances the position. -/
theorem test_step_illegal : after (step (withInput (.issue 0x0A00000000000000#64))) =
    { State.reset with err := 8#4, position := 1 } := by decide
/-- R14, R63: a step runs the word's operation and advances the position. -/
theorem test_step_runs : after (step (State.reset.withFetchWord 64 0x0100000001030000)) =
    { State.reset with addrOut := 0x13#8, position := 1 } := by decide
/-- The first step after reset runs a one-byte row as the Illegal word it is (log entry 1). -/
theorem test_step_wire : after (step (State.reset.withFetchWord 8 0x30)) =
    { State.reset with err := 8#4, position := 1 } := by decide
/-- V8 after V4.2's frame: 0x0116 and 0x0119. -/
theorem test_read_port :
    (after (exec .pstat (received frameV42 9))).readPort 0x0116#16 = 0xFFF7#16 ∧
    (received frameV42 9).readPort 0x0119#16 = 9#16 ∧ (received frameV42 9).readPort 0x0008#16 = 0x004B#16 ∧
    (received frameV42 9).readPort 0x0107#16 = 0#16 ∧ (received frameV42 9).readPort 0x011B#16 = 0#16 := by decide
/-- R126: the reset input clears the registers and forgets the written receive bytes. -/
theorem test_reset_input : after (step { gotE4 with pending := [.reset], err := 3#4, position := 4 }) =
    { State.reset with position := 4, resets := 1 } := by decide

/-! ### The assembler -/

/-- R73, R76: a symbolic constant, a hexadecimal and a decimal number, a comment, a blank line. -/
theorem test_parse_line : parseLine "BUILD0 STX,0x3a ; c".toList = some [.build0 2 58] ∧
    parseLine "RXL 10, 1".toList = some [.rxl 10 1] ∧ parseLine " ; c".toList = some [] := by decide
/-- R75 and P1: RXFRAME is its RXBs and the RXL. -/
theorem test_assemble_rxframe : assemble (.rxframe [0x02, 0x13]) =
    some [0x0800000000000002#64, 0x0800000001000013#64, 0x0900000000010002#64] := by decide
/-- R73: an operand out of range is an assembly error. -/
theorem test_assemble_error : assembleText "RXB 256, 0".toList = none := by decide

/-! ### Witnesses: for each statement with hypotheses, a state and operands that meet them together -/

/-- A state that has built E3's frame and has one word to come. -/
def built : State :=
  { State.reset with
    txbuf := #v[0x02#8, 0x01#8, 0x30#8, 0x03#8, 0x36#8, 0x00#8, 0x00#8], txlen := 5#3, rxbuf := [(3, 1#8), (255, 2#8)]
    pending := [.issue 0x0700000000000000#64] }

theorem built_legal : built.Legal := by
  refine ⟨by decide, ⟨by decide, fun i h1 h2 => ?_, by decide, by decide⟩, ⟨by decide, by decide⟩, by decide⟩
  have h3 : 5 ≤ i := h1
  interval_cases i <;> rfl

theorem witness_ResetRegisterValues :
    (withInput .reset).pending = .reset :: [] ∧ ∃ t, step (withInput .reset) = .next t := ⟨rfl, _, rfl⟩

theorem witness_ResetLeavesHostSide :
    ({ gotE4 with pending := [.reset, .read 5#16], position := 3 } : State).pending = .reset :: [.read 5#16] := rfl

theorem witness_LegalKeptByEveryStep : built.Legal ∧ ∃ t, step built = .next t := ⟨built_legal, _, rfl⟩

theorem witness_StepRunsDecodedInstruction :
    built.pending = .issue 0x0700000000000000#64 :: [] ∧ decode 0x0700000000000000#64 = .op .rxresp := by decide

theorem witness_IllegalWordSetsErrOnly :
    ((withInput (.issue 0x30#64)).pending = .issue 0x30#64 :: [] ∧ decodeOperation 0x30#64 = .illegal .reservedCode) ∧
    (withInput (.issue (encode (.rxl 257#16 true)))).pending = .issue (encode (.rxl 257#16 true)) :: [] ∧
    256 < (257#16).toNat := by decide

theorem witness_IdleHostKeepsState : gotE4.pending = [] := rfl

/-- Both ends of both reserved ranges, and of the buffers. -/
theorem witness_ReadPortMap :
    (∀ a ∈ [0x107#16, 0x10F#16, 0x11B#16, 0xFFFF#16],
      (0x107 ≤ a.toNat ∧ a.toNat ≤ 0x10F ∨ 0x11B ≤ a.toNat) ∧ (withInput (.read a)).pending = .read a :: []) ∧
    (0 < 0x100 ∧ 255 < 0x100) ∧ 0 < 7 ∧ 6 < 7 := by
  refine ⟨fun a ha => ⟨?_, rfl⟩, by decide⟩
  simp only [List.mem_cons, List.not_mem_nil, or_false] at ha
  rcases ha with rfl | rfl | rfl | rfl <;> simp

theorem witness_ReadsHaveNoSideEffect :
    ({ gotE4 with pending := [.read 8#16, .read 8#16] } : State).pending = .read 8#16 :: .read 8#16 :: [] := rfl

theorem witness_DecodeEncodeAgree : Instr.wellFormed (.rxl 0xFFFF#16 true) = true := by decide

theorem witness_OperationHasOneWord : decodeOperation 0x09000000000100FF#64 = .op (.rxl 0xFF#16 true) := by decide

/-- One word for each kind of reserved field, the field at its smallest non-zero value. -/
theorem witness_ReservedFieldsAreIllegal :
    rsvField 0x0100000100000000#64 ≠ 0#24 ∧
    (opcField 0x0100000000000100#64 = 0x01#8 ∧ hField 0x0100000000000100#64 ≠ 0#8) ∧
    (opcField 0x0200000000000001#64 = 0x02#8 ∧ lField 0x0200000000000001#64 ≠ 0#8) ∧
    (opcField 0x0300000000000100#64 = 0x03#8 ∧ hField 0x0300000000000100#64 ≠ 0#8) ∧
    (opcField 0x0500000001000000#64 = 0x05#8 ∧ aField 0x0500000001000000#64 ≠ 0#8) ∧
    (opcField 0x0600000000010000#64 = 0x06#8 ∧ bField 0x0600000000010000#64 ≠ 0#8) ∧
    (opcField 0x0700000000000100#64 = 0x07#8 ∧ hField 0x0700000000000100#64 ≠ 0#8) ∧
    (opcField 0x0800000000010000#64 = 0x08#8 ∧ bField 0x0800000000010000#64 ≠ 0#8) ∧
    (opcField 0x0900000001000000#64 = 0x09#8 ∧ aField 0x0900000001000000#64 ≠ 0#8) ∧
    (opcField 0x0900000000020000#64 = 0x09#8 ∧ (bField 0x0900000000020000#64).extractLsb' 1 7 ≠ 0#7) := by decide

theorem witness_ReservedCodesAreIllegal :
    opcField 0x00FFFFFFFFFFFFFF#64 = 0x00#8 ∧ 0x0A ≤ (opcField 0x0A00000000000000#64).toNat ∧
    0x0A ≤ (opcField 0xFF00000000000000#64).toNat := by decide

theorem witness_MkaddrMaskingLaw : (15#8).toNat ≤ 15 ∧ (0#8).toNat ≤ 15 := by decide

theorem witness_PackingIsBijection :
    (15#8).toNat < 16 ∧ (0#8).toNat < 16 ∧ packAddress 15#8 0#8 = 0xF0#8 := by decide

theorem witness_BuiltFramePassesVchk :
    ∃ t, exec (.build2 0x13#8 0x37#8 0x1234#16) State.reset = .next t ∧
      ∃ u, u = received [0x02#8, 0x13#8, 0x37#8, 0x34#8, 0x12#8, 0x03#8, 0x95#8] 7 ∧ u.rxpres = true ∧
        u.rxlen.val = t.txlen.toNat ∧ ∀ j, j < t.txlen.toNat → u.rxByte j = frameByte t.txbuf.toList j := by
  refine ⟨_, rfl, _, rfl, rfl, rfl, fun j hj => ?_⟩
  have h7 : j < 7 := hj
  interval_cases j <;> rfl

theorem witness_LoopbackProgramValidates : ∃ t, exec (.build0 0x01#8 0x30#8) gotE4 = .next t := ⟨_, rfl⟩

theorem witness_SingleByteChangeIsDetected :
    5 ≤ frameE4.length ∧ checkFlag (some frameE4) = true ∧ 8 < frameE4.length ∧ frameE4.getD 8 0#8 ≠ 0x38#8 := by decide

theorem witness_ChecksumMissesReordering :
    (4 ≤ [0x02#8, 0x01#8, 0x30#8, 0x03#8].length ∧
      [0x02#8, 0x01#8, 0x30#8, 0x03#8].Perm [0x02#8, 0x30#8, 0x01#8, 0x03#8]) ∧
    4 ≤ ([] ++ 0x02#8 :: [0x01#8, 0x30#8] ++ 0x03#8 :: []).length ∧ 4 ≤ ([0x02#8, 0x01#8] ++ [0x30#8, 0x03#8]).length := by
  decide

/-- Both decoders, ending with and without an error. -/
theorem witness_NoPartialStatus :
    (after (exec .pstat (received frameE4 8))).err ≠ 0#4 ∧ (after (exec .pstat gotE4)).err = 0#4 ∧
    (after (exec .rxresp (received [] 0))).err ≠ 0#4 ∧ (after (exec .rxresp gotE4)).err = 0#4 := by decide

/-- The clauses at their boundaries: 9 bytes, absent, empty, 1 and 8 bytes. -/
theorem witness_PstatAndRxrespCompared :
    (gotE4.rxpres = true ∧ gotE4.rxlen.val = 9) ∧ State.reset.rxpres = false ∧ (received [] 0).rxlen.val = 0 ∧
    ((received frameE4 1).rxpres = true ∧ 1 ≤ (received frameE4 1).rxlen.val ∧ (received frameE4 1).rxlen.val ≤ 8) ∧
    ((received frameE4 8).rxpres = true ∧ 1 ≤ (received frameE4 8).rxlen.val ∧ (received frameE4 8).rxlen.val ≤ 8) := by
  decide

theorem witness_DoorViewReadsBitmapBytes :
    (∃ t, exec .pstat gotE4 = .next t ∧ t.stValid = true) ∧ ∃ t, exec .rxresp gotE4 = .next t ∧ t.stValid = true :=
  ⟨⟨_, rfl, by decide⟩, _, rfl, by decide⟩

theorem witness_DecodersReadOnlyBelowRxlen :
    ∃ u : State, u ≠ gotE4 ∧ gotE4.rxpres = u.rxpres ∧ gotE4.rxlen = u.rxlen ∧
      (gotE4.rxpres = true → ∀ j, j < gotE4.rxlen.val → gotE4.rxByte j = u.rxByte j) := by
  refine ⟨received (frameE4 ++ [0x55#8]) 9, by decide, rfl, rfl, fun _ j hj => ?_⟩
  have h9 : j < 9 := hj
  interval_cases j <;> rfl

theorem witness_RxrespReadsOnlyFirstNine :
    ∃ s u : State, s ≠ u ∧ s.rxpres = u.rxpres ∧ s.rxlen = u.rxlen ∧
      (s.rxpres = true → 9 ≤ s.rxlen.val → ∀ j, j < 9 → s.rxByte j = u.rxByte j) := by
  refine ⟨received (frameE4 ++ [0x00#8]) 10, received (frameE4 ++ [0x01#8]) 10, by decide, rfl, rfl, fun _ _ j hj => ?_⟩
  interval_cases j <;> rfl

theorem witness_LoadedInputHidesResetBytes : gotE4.Loaded := by
  intro i hi
  have h9 : i < 9 := hi
  interval_cases i <;> exact ⟨_, rfl⟩

theorem witness_WireOpcodeTreatment :
    gotE4.rxpres = true ∧ 9 ≤ gotE4.rxlen.val ∧ gotE4.rxByte 0 = Config.stx ∧ gotE4.rxByte 7 = Config.etx ∧
    sum8 (gotE4.rxRead (gotE4.rxlen.val - 1)) = gotE4.rxByte (gotE4.rxlen.val - 1) ∧
    sum8 (gotE4.rxRead 8) = gotE4.rxByte 8 ∧ gotE4.rxByte 2 = 0x35#8 := by decide

theorem witness_RxlResult : (256#16).toNat ≤ 256 ∧ 256 < (257#16).toNat := by decide

theorem witness_RxframeLoadsResponse :
    (∃ words, assemble (.rxframe []) = some words) ∧ ∃ words, assemble (.rxframe [0x02, 255]) = some words :=
  ⟨⟨_, rfl⟩, _, rfl⟩

theorem witness_LoadOrderIsImmaterial :
    Memory.wf gotE4.rxbuf = true ∧ ([(0#8, 1#8), (255#8, 2#8)].map Prod.fst).Nodup ∧ (256#16).toNat ≤ 256 ∧
    [Instr.rxb 255#8 2#8, .rxl 256#16 true, .rxb 0#8 1#8].Perm
      (.rxl 256#16 true :: [(0#8, 1#8), (255#8, 2#8)].map (fun xb => Instr.rxb xb.1 xb.2)) := by decide

theorem witness_WriteSets : ∃ t, exec (.rxb 7#8 0x03#8) gotE4 = .next t := ⟨_, rfl⟩

theorem witness_ResultsDependOnBlockRegistersOnly :
    gotE4.SameBlock { gotE4 with pending := [.reset], position := 9, replies := [1#16] } :=
  ⟨fun _ _ => rfl, rfl, rfl, rfl, rfl, rfl, rfl, rfl, rfl, rfl, rfl, rfl, rfl⟩

theorem witness_AssembledCodeIsLegal :
    Source.wellFormed (.build1 256 0 0) = false ∧ Source.wellFormed (.build1 255 0 0) = true := by decide

theorem witness_CommandPseudoInstructions : (255 : Nat) ≤ 255 ∧ (0 : Nat) ≤ 255 := by decide

end Sys2Proof.Tests
end

section
/-! SUPPORT. The read port's map (R35, R36): one rule per address range and per register, the step of a read, and the
statement O11 assembled from them. -/

namespace Sys2Proof.Machine

variable (s : State)

/-! ### The buffers -/

theorem State.readPort_of_lt {a : Half} (h : a.toNat < 0x100) :
    s.readPort a = (s.rxByte a.toNat).zeroExtend 16 := if_pos h

theorem State.readPort_of_txbuf {a : Half} (hlo : 0x100 ≤ a.toNat) (hhi : a.toNat < 0x107) :
    s.readPort a = (frameByte s.txbuf.toList (a.toNat - 0x100)).zeroExtend 16 :=
  (if_neg (Nat.not_lt.2 hlo)).trans (if_pos hhi)

theorem State.readPort_rxbuf {i : Nat} (h : i < 0x100) :
    s.readPort (BitVec.ofNat 16 i) = (s.rxByte i).zeroExtend 16 := by
  have hi : (BitVec.ofNat 16 i).toNat = i := by rw [BitVec.toNat_ofNat]; omega
  simpa only [hi] using s.readPort_of_lt (a := BitVec.ofNat 16 i) (by omega)

theorem State.readPort_txbuf {i : Nat} (h : i < 7) :
    s.readPort (BitVec.ofNat 16 (0x100 + i)) = (frameByte s.txbuf.toList i).zeroExtend 16 := by
  have hi : (BitVec.ofNat 16 (0x100 + i)).toNat = 0x100 + i := by rw [BitVec.toNat_ofNat]; omega
  simpa only [hi, Nat.add_sub_cancel_left] using
    s.readPort_of_txbuf (a := BitVec.ofNat 16 (0x100 + i)) (by omega) (by omega)

/-! ### The registers -/

/-- A one-bit register on the read port is its bit, zero-extended (R34). -/
theorem bitHalf_eq_zeroExtend (b : Bool) : bitHalf b = (BitVec.ofBool b).zeroExtend 16 := by
  cases b <;> rfl

@[simp] theorem State.readPort_txlen : s.readPort 0x0110#16 = s.txlen.zeroExtend 16 := rfl
@[simp] theorem State.readPort_addrOut : s.readPort 0x0111#16 = s.addrOut.zeroExtend 16 := rfl
@[simp] theorem State.readPort_chkOk : s.readPort 0x0112#16 = bitHalf s.chkOk := rfl
@[simp] theorem State.readPort_stValid : s.readPort 0x0113#16 = bitHalf s.stValid := rfl
@[simp] theorem State.readPort_stAddr : s.readPort 0x0114#16 = s.stAddr.zeroExtend 16 := rfl
@[simp] theorem State.readPort_stCmd : s.readPort 0x0115#16 = s.stCmd.zeroExtend 16 := rfl
@[simp] theorem State.readPort_stLock : s.readPort 0x0116#16 = s.stLock := rfl
@[simp] theorem State.readPort_stOcc : s.readPort 0x0117#16 = s.stOcc := rfl
@[simp] theorem State.readPort_err : s.readPort 0x0118#16 = s.err.zeroExtend 16 := rfl
@[simp] theorem State.readPort_rxlen : s.readPort 0x0119#16 = BitVec.ofNat 16 s.rxlen.val := rfl
@[simp] theorem State.readPort_rxpres : s.readPort 0x011A#16 = bitHalf s.rxpres := rfl

/-- `RXLEN` is at most 256, so the read port shows it whole (R17). -/
theorem State.readPort_rxlen_toNat : (s.readPort 0x0119#16).toNat = s.rxlen.val := by
  have hlen : s.rxlen.val < 257 := s.rxlen.isLt
  rw [s.readPort_rxlen, BitVec.toNat_ofNat]
  omega

/-! ### The reserved addresses -/

/-- The two reserved ranges of the read port (R36). -/
def ReservedAddress (a : Half) : Prop := 0x107 ≤ a.toNat ∧ a.toNat ≤ 0x10F ∨ 0x11B ≤ a.toNat

/-- A reserved address lies in no range of the map and is no register's address (R36). -/
theorem State.readPort_reserved {a : Half} (h : ReservedAddress a) : s.readPort a = 0#16 := by
  unfold ReservedAddress at h
  simp (disch := omega) only [State.readPort, if_neg]

/-! ### The step of a read -/

/-- A read takes its input, returns the port's value to the host and changes nothing of the block (R34, R44). -/
theorem step_read {s : State} {a : Half} {rest : List HostInput} (h : s.pending = .read a :: rest) :
    step s = .next { s with pending := rest, replies := s.replies ++ [s.readPort a] } := by
  have hstep : step s = .next (s.answerRead a) := by simp only [step, h]
  rw [hstep, State.answerRead, h, List.tail_cons]

/-- A read of a reserved address returns 0 (R36). -/
theorem step_read_reserved {s : State} {a : Half} {rest : List HostInput} (ha : ReservedAddress a)
    (h : s.pending = .read a :: rest) :
    step s = .next { s with pending := rest, replies := s.replies ++ [0#16] } := by
  rw [step_read h, s.readPort_reserved ha]

/-- Settles O11: the ranges of the map, its eleven registers, and the reserved addresses, each by its own rule. -/
theorem readPortMap : Obligations.ReadPortMap := by
  intro s
  refine ⟨fun _ => s.readPort_rxbuf, fun _ => s.readPort_txbuf, s.readPort_txlen, s.readPort_addrOut, ?chkOk, ?stValid,
    s.readPort_stAddr, s.readPort_stCmd, s.readPort_stLock, s.readPort_stOcc, s.readPort_err, s.readPort_rxlen_toNat,
    ?rxpres, fun _ ha => ⟨s.readPort_reserved ha, fun _ => step_read_reserved ha⟩⟩
  case chkOk => rw [s.readPort_chkOk, bitHalf_eq_zeroExtend]
  case stValid => rw [s.readPort_stValid, bitHalf_eq_zeroExtend]
  case rxpres => rw [s.readPort_rxpres, bitHalf_eq_zeroExtend]

end Sys2Proof.Machine
end

section
/-! SUPPORT. The operation decoder (R59 to R61), one equation per operation code, when it answers Illegal, and the
statements O17 and O18 assembled from them. -/

namespace Sys2Proof

/-! ### One equation per operation code -/

section opcodes

variable (a b h l : Byte)

theorem decodeFields_mkaddr : decodeFields 0x01#8 a b h l = legalIf (h == 0#8 && l == 0#8) (.mkaddr a b) := rfl
theorem decodeFields_build0 : decodeFields 0x02#8 a b h l = legalIf (h == 0#8 && l == 0#8) (.build0 a b) := rfl
theorem decodeFields_build1 : decodeFields 0x03#8 a b h l = legalIf (h == 0#8) (.build1 a b l) := rfl
theorem decodeFields_build2 : decodeFields 0x04#8 a b h l = .op (.build2 a b (h ++ l)) := rfl
theorem decodeFields_vchk :
    decodeFields 0x05#8 a b h l = legalIf (a == 0#8 && b == 0#8 && h == 0#8 && l == 0#8) .vchk := rfl
theorem decodeFields_pstat :
    decodeFields 0x06#8 a b h l = legalIf (a == 0#8 && b == 0#8 && h == 0#8 && l == 0#8) .pstat := rfl
theorem decodeFields_rxresp :
    decodeFields 0x07#8 a b h l = legalIf (a == 0#8 && b == 0#8 && h == 0#8 && l == 0#8) .rxresp := rfl
theorem decodeFields_rxb : decodeFields 0x08#8 a b h l = legalIf (b == 0#8 && h == 0#8) (.rxb a l) := rfl
theorem decodeFields_rxl :
    decodeFields 0x09#8 a b h l =
      legalIf (a == 0#8 && b.extractLsb' 1 7 == 0#7) (.rxl (h ++ l) (b.getLsbD 0)) := rfl

end opcodes

/-! ### When the decoder answers Illegal -/

theorem legalIf_eq_illegal_iff (ok : Bool) (i : Instr) :
    legalIf ok i = .illegal .reservedOperand ↔ ok = false := by
  cases ok <;> simp [legalIf]

/-- The operation codes the block does not have (R59). -/
def ReservedCode (opc : Byte) : Prop := opc = 0x00#8 ∨ 0x0A ≤ opc.toNat

/-- A field R55 marks "rsv" for the operation code is not zero (R60). -/
def ReservedOperandSet (opc a b h l : Byte) : Prop :=
  ((opc = 0x01#8 ∨ opc = 0x02#8) ∧ (h ≠ 0#8 ∨ l ≠ 0#8)) ∨
  (opc = 0x03#8 ∧ h ≠ 0#8) ∨
  ((opc = 0x05#8 ∨ opc = 0x06#8 ∨ opc = 0x07#8) ∧ (a ≠ 0#8 ∨ b ≠ 0#8 ∨ h ≠ 0#8 ∨ l ≠ 0#8)) ∨
  (opc = 0x08#8 ∧ (b ≠ 0#8 ∨ h ≠ 0#8)) ∨
  (opc = 0x09#8 ∧ (a ≠ 0#8 ∨ b.extractLsb' 1 7 ≠ 0#7))

theorem ReservedCode.ne {opc : Byte} (h : ReservedCode opc) (k : Byte) (hlo : 1 ≤ k.toNat) (hhi : k.toNat ≤ 9) :
    opc ≠ k := by
  rintro rfl
  rcases h with rfl | h
  · exact absurd hlo (by decide)
  · omega

/-- A reserved code is none of the nine that the decoder tries (R59). -/
theorem decodeFields_reservedCode {opc : Byte} (hopc : ReservedCode opc) (a b h l : Byte) :
    decodeFields opc a b h l = .illegal .reservedCode := by
  simp (disch := exact hopc.ne _ (by decide) (by decide)) only [decodeFields, if_neg]

theorem decodeFields_reservedOperand {opc a b h l : Byte} (hset : ReservedOperandSet opc a b h l) :
    decodeFields opc a b h l = .illegal .reservedOperand := by
  rcases hset with ⟨rfl | rfl, hr⟩ | ⟨rfl, hr⟩ | ⟨rfl | rfl | rfl, hr⟩ | ⟨rfl, hr⟩ | ⟨rfl, hr⟩
  · simpa only [decodeFields_mkaddr, legalIf_eq_illegal_iff, Bool.and_eq_false_iff, beq_eq_false_iff_ne] using hr
  · simpa only [decodeFields_build0, legalIf_eq_illegal_iff, Bool.and_eq_false_iff, beq_eq_false_iff_ne] using hr
  · simpa only [decodeFields_build1, legalIf_eq_illegal_iff, beq_eq_false_iff_ne] using hr
  · simpa only [decodeFields_vchk, legalIf_eq_illegal_iff, Bool.and_eq_false_iff, beq_eq_false_iff_ne, or_assoc] using hr
  · simpa only [decodeFields_pstat, legalIf_eq_illegal_iff, Bool.and_eq_false_iff, beq_eq_false_iff_ne, or_assoc] using hr
  · simpa only [decodeFields_rxresp, legalIf_eq_illegal_iff, Bool.and_eq_false_iff, beq_eq_false_iff_ne, or_assoc] using hr
  · simpa only [decodeFields_rxb, legalIf_eq_illegal_iff, Bool.and_eq_false_iff, beq_eq_false_iff_ne] using hr
  · simpa only [decodeFields_rxl, legalIf_eq_illegal_iff, Bool.and_eq_false_iff, beq_eq_false_iff_ne] using hr

theorem decodeOperation_of_rsv_ne {w : Word} (hw : rsvField w ≠ 0#24) :
    decodeOperation w = .illegal .reservedBits := if_neg hw

theorem decodeOperation_of_rsv_eq {w : Word} (hw : rsvField w = 0#24) :
    decodeOperation w = decodeFields (opcField w) (aField w) (bField w) (hField w) (lField w) := if_pos hw

/-- Whatever `RSV` is, a word whose other fields are Illegal is Illegal. -/
theorem decodeOperation_illegal_of_fields {w : Word} {why : Illegal}
    (hf : decodeFields (opcField w) (aField w) (bField w) (hField w) (lField w) = .illegal why) :
    ∃ why, decodeOperation w = .illegal why := by
  by_cases hw : rsvField w = 0#24
  · exact ⟨why, (decodeOperation_of_rsv_eq hw).trans hf⟩
  · exact ⟨_, decodeOperation_of_rsv_ne hw⟩

/-- Settles O17: the decoder refuses a set `RSV` before it reads any field, and each operation code checks the fields
reserved for it. -/
theorem reservedFieldsAreIllegal : Obligations.ReservedFieldsAreIllegal := by
  rintro w (hrsv | hset)
  · exact ⟨_, decodeOperation_of_rsv_ne hrsv⟩
  · exact decodeOperation_illegal_of_fields (decodeFields_reservedOperand hset)

/-- Settles O18: a reserved code meets no arm of the decoder. -/
theorem reservedCodesAreIllegal : Obligations.ReservedCodesAreIllegal :=
  fun _ hopc => decodeOperation_illegal_of_fields (decodeFields_reservedCode hopc _ _ _ _)

/-! ### What the decoder of the whole table reads -/

/-- A name that the table gives an Illegal word is a one-byte row's, never an operation's (log entry 1). -/
theorem decodeWire_not_wellFormed {c : Byte} {i : Instr} (h : decodeWire c = some i) : i.wellFormed = false := by
  unfold decodeWire at h
  repeat' split at h
  all_goals cases h <;> rfl

/-- The word of an RXL decodes to it, whatever its length: the bound is checked when it executes (R61). -/
theorem decode_encode_rxl (n : Half) (p : Bool) : decode (encode (.rxl n p)) = .op (.rxl n p) := by
  have hpad : (0#7 ++ BitVec.ofBool p).extractLsb' 1 7 = 0#7 := by cases p <;> rfl
  have hbit : (0#7 ++ BitVec.ofBool p).getLsbD 0 = p := by cases p <;> rfl
  apply decode_of_operation
  rw [encode, decodeOperation_operationWord, decodeFields_rxl, half_append, hpad, hbit]
  rfl

end Sys2Proof
end

section
/-! SUPPORT. The step of an issued word (R14, R61, R64), what a row that is no operation does, and the statement O8
assembled from them. -/

namespace Sys2Proof.Machine

/-- R64's effect as one step: `ERR` is ILLEGAL_OP, the word is taken off the inputs, the position is one further. -/
theorem State.illegalOp_retire {s : State} {i : HostInput} {rest : List HostInput} (hp : s.pending = i :: rest) :
    s.illegalOp.retire = { s with err := 8#4, pending := rest, position := s.position + 1 } := by
  rw [State.retire, State.illegalOp_pending, hp, List.tail_cons, State.illegalOp_eq]

theorem step_issue_operation {s t : State} {w : Word} {rest : List HostInput} {i : Instr}
    (hp : s.pending = .issue w :: rest) (hd : decode w = .op i) (he : exec i s = .next t) :
    step s = .next t.retire := by
  simp only [step, hp, hd, he]

theorem step_issue_illegal {s : State} {w : Word} {rest : List HostInput} {why : Illegal}
    (hp : s.pending = .issue w :: rest) (hd : decode w = .illegal why) : step s = .next s.illegalOp.retire := by
  simp only [step, hp, hd]

/-- A one-byte row at the operation port does what an Illegal word does (R64, log entry 1). -/
theorem exec_of_not_wellFormed {i : Instr} (hi : i.wellFormed = false) (s : State) :
    exec i s = .next s.illegalOp := by
  cases i with
  | mkaddr | build0 | build1 | build2 | vchk | pstat | rxresp | rxb | rxl => cases hi
  | getStatus | unlockOne | getAllBus | unlockAll | statusSingle | statusAll | setUnlockTime | unlockTime
  | setDelayOrBaud | stx | etx => rfl

theorem exec_rxl_too_long {n : Half} (hn : 256 < n.toNat) (p : Bool) (s : State) :
    exec (.rxl n p) s = .next s.illegalOp := dif_neg (by omega)

/-- The table may name a word that R61 calls Illegal, but its step is R64's either way. -/
theorem step_issue_of_decodeOperation_illegal {s : State} {w : Word} {rest : List HostInput} {why : Illegal}
    (hp : s.pending = .issue w :: rest) (hw : decodeOperation w = .illegal why) :
    step s = .next s.illegalOp.retire := by
  rcases decode_of_illegal hw with hd | ⟨i, hd, hwire⟩
  · exact step_issue_illegal hp hd
  · exact step_issue_operation hp hd (exec_of_not_wellFormed (decodeWire_not_wellFormed hwire) s)

/-- Settles O8: both kinds of word end in `State.illegalOp`, by the decoder or by RXL's own bound. -/
theorem illegalWordSetsErrOnly : Obligations.IllegalWordSetsErrOnly := by
  refine ⟨fun s w rest why hp hw => ?illegal, fun s n p rest hp hn => ?tooLong⟩
  case illegal => rw [step_issue_of_decodeOperation_illegal hp hw, State.illegalOp_retire hp]
  case tooLong =>
    rw [step_issue_operation hp (decode_encode_rxl n p) (exec_rxl_too_long hn p s), State.illegalOp_retire hp]

end Sys2Proof.Machine
end

section
/-! SUPPORT. `sum8` as a number (R80), what a byte at the end adds to it (R81), and the statement O22 assembled from
them. -/

namespace Sys2Proof.Machine

/-- R80: `sum8` as a number. -/
theorem sum8_toNat (bs : List Byte) : (sum8 bs).toNat = (bs.map BitVec.toNat).sum % 256 :=
  BitVec.toNat_ofNat _ 8

/-- R81: reducing the sum of the bytes so far before the last byte is added changes nothing. -/
theorem sum8_concat_toNat (bs : List Byte) (b : Byte) :
    (sum8 (bs ++ [b])).toNat = ((sum8 bs).toNat + b.toNat) % 256 := by
  rw [sum8_toNat, sum8_toNat, List.map_append, List.sum_append, List.map_singleton, List.sum_singleton,
    Nat.mod_add_mod]

/-- R80's accumulator. The bytes are added first to last, so the induction takes the last byte off. -/
theorem sum8_toNat_eq_foldl (bs : List Byte) :
    (sum8 bs).toNat = bs.foldl (fun acc b => (acc + b.toNat) % 256) 0 := by
  induction bs using List.reverseRecOn with
  | nil => rfl
  | append_singleton bs b ih => rw [sum8_concat_toNat, ih, List.foldl_concat]

/-- Settles O22: the closed form by definition, the accumulator by induction on the last byte. -/
theorem sum8IsSumModulo256 : Obligations.Sum8IsSumModulo256 :=
  ⟨sum8_toNat, sum8_nil, sum8_toNat_eq_foldl⟩

end Sys2Proof.Machine
end

section
/-! SUPPORT. What a decoding may answer (R93, R96, R99): an error that is not NONE, or a Status with a recognised
opcode; what committing such an answer leaves in the registers, and the statement O34 assembled from them. -/

namespace Sys2Proof.Machine

/-! ### The two decoders -/

/-- PSTAT commits the decoding of its input (R93). -/
theorem exec_pstat (s : State) : exec .pstat s = .next (s.commitStatus (parseInput s.rxInput)) := rfl

/-- RXRESP commits the response handling's answer (R99). -/
theorem exec_rxresp (s : State) : exec .rxresp s = .next (s.commitStatus s.response) := rfl

/-! ### What a decoding may answer -/

/-- Code 0 is NONE's and no other kind's (R110). -/
theorem ErrorKind.code_eq_zero_iff (e : ErrorKind) : e.code = 0#4 ↔ e = .none := by
  cases e <;> decide

/-- An answer that is a failure with a real error kind or a Status with a recognised opcode (R92, R93). -/
def StatusResult.Sound : StatusResult → Prop
  | .ok st => st.cmd = Config.statusSingle ∨ st.cmd = Config.statusAll
  | .fail e => e ≠ .none

@[simp] theorem StatusResult.sound_ok (st : Status) :
    (StatusResult.ok st).Sound ↔ st.cmd = Config.statusSingle ∨ st.cmd = Config.statusAll := Iff.rfl

@[simp] theorem StatusResult.sound_fail (e : ErrorKind) : (StatusResult.fail e).Sound ↔ e ≠ .none := Iff.rfl

/-- The opcode check is the last one, so a Status is answered only when it passed (R93, R94). -/
theorem decodeStatus_sound (bs : List Byte) : (decodeStatus bs).Sound := by
  rcases decodeStatus_cases bs with ⟨-, h⟩ | ⟨-, -, h⟩ | ⟨-, -, -, -, h⟩ | ⟨-, -, -, -, -, h⟩ | ⟨-, -, -, -, hop, h⟩ <;>
    rw [h]
  case inr.inr.inr.inr => exact (isStatusOpcode_iff _).1 hop
  all_goals simp

theorem parseInput_sound (input : Option (List Byte)) : (parseInput input).Sound := by
  cases input with
  | none => simp [parseInput]
  | some bs => exact decodeStatus_sound bs

theorem State.response_sound (s : State) : s.response.Sound := by
  rcases s.response_cases with ⟨-, h⟩ | ⟨-, -, -, h⟩ | ⟨-, -, h⟩ <;> rw [h]
  · simp
  · simp
  · exact decodeStatus_sound _

/-- Each decoder completes by committing a sound answer. -/
theorem exec_decoder_commits {i : Instr} (hi : i = .pstat ∨ i = .rxresp) (s : State) :
    ∃ r : StatusResult, r.Sound ∧ exec i s = .next (s.commitStatus r) := by
  rcases hi with rfl | rfl
  · exact ⟨_, parseInput_sound _, exec_pstat s⟩
  · exact ⟨_, s.response_sound, exec_rxresp s⟩

/-! ### What a committed answer leaves -/

/-- Only a failure leaves an error, and it clears every status register (R96). -/
theorem State.commitStatus_cleared (s : State) {r : StatusResult} (herr : (s.commitStatus r).err ≠ 0#4) :
    (s.commitStatus r).stValid = false ∧ (s.commitStatus r).stAddr = 0#8 ∧ (s.commitStatus r).stCmd = 0#8 ∧
      (s.commitStatus r).stLock = 0#16 ∧ (s.commitStatus r).stOcc = 0#16 := by
  cases r with
  | ok st => exact absurd (s.commitStatus_ok_err st) herr
  | fail e => simp

/-- A sound answer that leaves `ERR` = 0 is a Status (R26, R93). -/
theorem State.commitStatus_valid (s : State) {r : StatusResult} (hr : r.Sound)
    (herr : (s.commitStatus r).err = 0#4) :
    (s.commitStatus r).stValid = true ∧
      ((s.commitStatus r).stCmd = Config.statusSingle ∨ (s.commitStatus r).stCmd = Config.statusAll) := by
  cases r with
  | ok st => exact ⟨s.commitStatus_ok_stValid st, hr⟩
  | fail e => exact absurd (e.code_eq_zero_iff.1 herr) hr

/-- Settles O34: both decoders commit a sound answer; an error clears the registers, its absence means a Status. -/
theorem noPartialStatus : Obligations.NoPartialStatus := by
  intro i s hi
  obtain ⟨r, hr, hexec⟩ := exec_decoder_commits hi s
  exact ⟨s.commitStatus r, hexec, s.commitStatus_cleared, s.commitStatus_valid hr⟩

end Sys2Proof.Machine
end

section
/-! SUPPORT. The block right after a reset (R126): the step that takes the reset input, the buffers it leaves, and the
statement O1 assembled from them. -/

namespace Sys2Proof.Machine

/-- The reset input is taken whatever state the block is in (R37, R127). -/
theorem step_reset {s : State} {rest : List HostInput} (h : s.pending = .reset :: rest) :
    step s = .next s.applyReset := by
  simp only [step, h]

/-- A receive buffer that RXB has not written since the last reset reads as that reset's draw (R126). -/
theorem State.rxByte_of_rxbuf_nil {s : State} (h : s.rxbuf = []) (i : Nat) :
    s.rxByte i = Config.rxbufReset s.resets i := by
  rw [State.rxByte, h, Memory.read_nil]

/-- The transmit buffer after reset holds seven zero bytes (R126). -/
theorem State.frameByte_reset_txbuf {i : Nat} (hi : i < 7) : frameByte State.reset.txbuf.toList i = 0#8 := by
  interval_cases i <;> rfl

/-- The block is the one of `State.reset`, with the draw of the last reset in its receive buffer: power-on reset and any
later reset have the same effect (R127). -/
def State.BlockAtReset (t : State) : Prop := t.SameBlock { State.reset with resets := t.resets }

theorem State.reset_blockAtReset : State.reset.BlockAtReset := by
  constructor <;> intros <;> rfl

/-- The reset input sets every register, so nothing of the block before it is left. -/
theorem State.applyReset_blockAtReset (s : State) : s.applyReset.BlockAtReset := by
  constructor <;> intros <;> rfl

/-- Settles O1: power-on reset and the reset input both leave the block at reset, whose registers are R126's list. -/
theorem resetRegisterValues : Obligations.ResetRegisterValues := by
  refine ⟨fun t ht => ?values, fun s rest hp => ⟨s.applyReset, step_reset hp⟩⟩
  have hblock : t.BlockAtReset := by
    rcases ht with rfl | ⟨s, rest, hp, hstep⟩
    · exact State.reset_blockAtReset
    · cases (step_reset hp).symm.trans hstep
      exact s.applyReset_blockAtReset
  refine ⟨congrArg Fin.val hblock.rxlen, hblock.rxpres, ?txbuf, hblock.txlen, hblock.addrOut, hblock.chkOk,
    hblock.stValid, hblock.stAddr, hblock.stCmd, hblock.stLock, hblock.stOcc, hblock.err, ?rxbuf⟩
  case txbuf =>
    rw [hblock.txbuf]
    exact fun _ => State.frameByte_reset_txbuf
  case rxbuf => exact fun i hi => (hblock.rxbuf i hi).trans (State.rxByte_of_rxbuf_nil rfl i)

end Sys2Proof.Machine
end

section
/-! SUPPORT. What an instruction leaves behind, said once: every instruction completes, and the state it leaves is one of
seven forms (`Performs`). The write sets (O46), and the single operations O19, O41 to O43. -/

namespace Sys2Proof.Machine

/-! ### Every instruction completes -/

theorem exec_completes (i : Instr) (s : State) : ∃ t, exec i s = .next t := by
  cases i with
  | rxl n p =>
    rcases execRxl_cases n p s with ⟨_, h⟩ | ⟨_, h⟩
    · exact ⟨_, h⟩
    · exact ⟨_, h⟩
  | _ => exact ⟨_, rfl⟩

/-- The state an instruction leaves. Since every instruction completes, the last two arms are never taken
(`exec_eq_perform`). -/
def State.perform (s : State) (i : Instr) : State :=
  match exec i s with
  | .next t => t
  | .fault _ => s
  | .refused _ => s

theorem State.perform_eq_of_exec {i : Instr} {s t : State} (h : exec i s = .next t) : s.perform i = t := by
  simp only [State.perform, h]

theorem exec_eq_perform (i : Instr) (s : State) : exec i s = .next (s.perform i) := by
  obtain ⟨t, ht⟩ := exec_completes i s
  rw [State.perform_eq_of_exec ht, ht]

/-! ### One equation per operation -/

section operations

variable (s : State)

@[simp] theorem State.perform_mkaddr (a b : Byte) :
    s.perform (.mkaddr a b) = { s with addrOut := packAddress a b, err := 0#4 } := rfl
@[simp] theorem State.perform_build0 (a c : Byte) : s.perform (.build0 a c) = s.build (simpleBody a c) := rfl
@[simp] theorem State.perform_build1 (a c d : Byte) : s.perform (.build1 a c d) = s.build (oneDataBody a c d) := rfl
@[simp] theorem State.perform_build2 (a c : Byte) (v : Half) :
    s.perform (.build2 a c v) = s.build (twoDataBody a c v) := rfl
@[simp] theorem State.perform_vchk : s.perform .vchk = s.setCheckFlag (checkFlag s.rxInput) := rfl
@[simp] theorem State.perform_pstat : s.perform .pstat = s.commitStatus (parseInput s.rxInput) := rfl
@[simp] theorem State.perform_rxresp : s.perform .rxresp = s.commitStatus s.response := rfl
@[simp] theorem State.perform_rxb (x b : Byte) :
    s.perform (.rxb x b) = { s with rxbuf := s.rxbuf.write x.toNat b, err := 0#4 } := rfl

theorem State.perform_rxl {n : Half} (h : n.toNat < 257) (p : Bool) :
    s.perform (.rxl n p) = { s with rxlen := ⟨n.toNat, h⟩, rxpres := p, err := 0#4 } :=
  State.perform_eq_of_exec (dif_pos h)

theorem State.perform_rxl_too_long {n : Half} (h : 256 < n.toNat) (p : Bool) :
    s.perform (.rxl n p) = s.illegalOp := State.perform_eq_of_exec (exec_rxl_too_long h p s)

end operations

/-! ### All that an instruction can leave -/

/-- The body of the frame a build leaves (R83 to R85). -/
inductive BuildBody : Instr → List Byte → Prop
  | build0 (a c : Byte) : BuildBody (.build0 a c) (simpleBody a c)
  | build1 (a c d : Byte) : BuildBody (.build1 a c d) (oneDataBody a c d)
  | build2 (a c : Byte) (v : Half) : BuildBody (.build2 a c v) (twoDataBody a c v)

theorem BuildBody.perform {i : Instr} {body : List Byte} (h : BuildBody i body) (s : State) :
    s.perform i = s.build body := by
  cases h <;> rfl

/-- The seven forms of the state an instruction leaves, each with the instructions that leave it. -/
inductive Performs (s : State) : Instr → State → Prop
  | pack (a b : Byte) : Performs s (.mkaddr a b) { s with addrOut := packAddress a b, err := 0#4 }
  | build {i : Instr} {body : List Byte} (h : BuildBody i body) : Performs s i (s.build body)
  | check : Performs s .vchk (s.setCheckFlag (checkFlag s.rxInput))
  | status {i : Instr} {r : StatusResult} (hi : i = .pstat ∨ i = .rxresp) (hr : r.Sound) :
      Performs s i (s.commitStatus r)
  | loadByte (x b : Byte) : Performs s (.rxb x b) { s with rxbuf := s.rxbuf.write x.toNat b, err := 0#4 }
  | loadLength {n : Half} (h : n.toNat < 257) (p : Bool) :
      Performs s (.rxl n p) { s with rxlen := ⟨n.toNat, h⟩, rxpres := p, err := 0#4 }
  | illegal {i : Instr} (hi : i.wellFormed = false ∨ ∃ n p, i = .rxl n p ∧ 256 < n.toNat) : Performs s i s.illegalOp

theorem State.performs (s : State) (i : Instr) : Performs s i (s.perform i) := by
  cases i with
  | mkaddr a b => exact .pack a b
  | build0 a c => exact .build (.build0 a c)
  | build1 a c d => exact .build (.build1 a c d)
  | build2 a c v => exact .build (.build2 a c v)
  | vchk => exact .check
  | pstat => exact .status (.inl rfl) (parseInput_sound _)
  | rxresp => exact .status (.inr rfl) s.response_sound
  | rxb x b => exact .loadByte x b
  | rxl n p =>
    by_cases h : n.toNat < 257
    · rw [s.perform_rxl h]
      exact .loadLength h p
    · rw [s.perform_rxl_too_long (by omega)]
      exact .illegal (.inr ⟨n, p, rfl, by omega⟩)
  | getStatus | unlockOne | getAllBus | unlockAll | statusSingle | statusAll | setUnlockTime | unlockTime
  | setDelayOrBaud | stx | etx => exact .illegal (.inl rfl)

/-! ### The write sets (R38), one register group each -/

section writeSets

variable {s t : State} {i : Instr}

theorem Performs.host (h : Performs s i t) :
    t.pending = s.pending ∧ t.position = s.position ∧ t.replies = s.replies ∧ t.resets = s.resets := by
  cases h <;> simp

theorem Performs.addrOut (h : Performs s i t) (hi : ∀ a b, i ≠ .mkaddr a b) : t.addrOut = s.addrOut := by
  cases h with
  | pack a b => exact absurd rfl (hi a b)
  | status => exact s.commitStatus_addrOut _
  | _ => rfl

theorem Performs.tx (h : Performs s i t) (hi : ∀ body, ¬ BuildBody i body) :
    t.txbuf = s.txbuf ∧ t.txlen = s.txlen := by
  cases h with
  | build hb => exact absurd hb (hi _)
  | status => exact ⟨s.commitStatus_txbuf _, s.commitStatus_txlen _⟩
  | _ => exact ⟨rfl, rfl⟩

theorem Performs.chkOk (h : Performs s i t) (hi : i ≠ .vchk) : t.chkOk = s.chkOk := by
  cases h with
  | check => exact absurd rfl hi
  | status => exact s.commitStatus_chkOk _
  | _ => rfl

theorem Performs.statusRegisters (h : Performs s i t) (h1 : i ≠ .pstat) (h2 : i ≠ .rxresp) :
    t.stValid = s.stValid ∧ t.stAddr = s.stAddr ∧ t.stCmd = s.stCmd ∧ t.stLock = s.stLock ∧ t.stOcc = s.stOcc := by
  cases h with
  | status hi => exact absurd hi (not_or.2 ⟨h1, h2⟩)
  | _ => exact ⟨rfl, rfl, rfl, rfl, rfl⟩

theorem Performs.rxLength (h : Performs s i t) (hi : ∀ n p, i = .rxl n p → 256 < n.toNat) :
    t.rxlen = s.rxlen ∧ t.rxpres = s.rxpres := by
  cases h with
  | @loadLength n hn p =>
    have := hi n p rfl
    omega
  | status => exact ⟨s.commitStatus_rxlen _, s.commitStatus_rxpres _⟩
  | _ => exact ⟨rfl, rfl⟩

theorem Performs.rxbuf (h : Performs s i t) (hi : ∀ x b, i ≠ .rxb x b) : t.rxbuf = s.rxbuf := by
  cases h with
  | loadByte x b => exact absurd rfl (hi x b)
  | status => exact s.commitStatus_rxbuf _
  | _ => rfl

theorem Performs.rxByte (h : Performs s i t) {j : Nat} (hi : ∀ x b, i = .rxb x b → j ≠ x.toNat) :
    t.rxByte j = s.rxByte j := by
  obtain ⟨-, -, -, hresets⟩ := h.host
  by_cases hb : ∃ x b, i = .rxb x b
  · obtain ⟨x, b, rfl⟩ := hb
    cases h with
    | loadByte => exact s.rxByte_write_other _ j b (hi x b rfl)
    | build hb => cases hb
    | status hi => simp at hi
    | illegal hi => simp [Instr.wellFormed, Instr.format] at hi
  · exact State.rxByte_congr (h.rxbuf fun x b hxb => hb ⟨x, b, hxb⟩) hresets j

end writeSets

/-- Settles O46: each clause is the frame of one register group, read off the seven forms. -/
theorem writeSets : Obligations.WriteSets := by
  intro i s t hexec
  have h : Performs s i t := State.perform_eq_of_exec hexec ▸ s.performs i
  refine ⟨h.host, h.addrOut, fun h0 h1 h2 => h.tx ?_, h.chkOk, h.statusRegisters, h.rxLength, fun _ => h.rxByte⟩
  rintro body (_ | _ | _)
  · exact h0 _ _ rfl
  · exact h1 _ _ _ rfl
  · exact h2 _ _ _ rfl

/-! ### Single operations -/

/-- Settles O19. -/
theorem mkaddrResult : Obligations.MkaddrResult := fun a b s => exec_eq_perform (.mkaddr a b) s

theorem State.rxByte_perform_rxb_same (s : State) (x b : Byte) : (s.perform (.rxb x b)).rxByte x.toNat = b :=
  s.rxByte_write_same x.toNat b

theorem State.rxByte_perform_rxb_other (s : State) {x : Byte} (b : Byte) {j : Nat} (h : j ≠ x.toNat) :
    (s.perform (.rxb x b)).rxByte j = s.rxByte j := s.rxByte_write_other x.toNat j b h

/-- Settles O42: the byte written is read back, and RXB's frame is its form among the seven. -/
theorem rxbResult : Obligations.RxbResult := fun x b s =>
  ⟨s.perform (.rxb x b), exec_eq_perform _ s, s.rxByte_perform_rxb_same x b,
    fun _ => s.rxByte_perform_rxb_other b, rfl⟩

/-- Settles O43: the two forms of RXL, split at the bound that it checks itself. -/
theorem rxlResult : Obligations.RxlResult := by
  refine fun n p s => ⟨fun hn => ?inRange, fun hn => exec_rxl_too_long hn p s⟩
  refine ⟨s.perform (.rxl n p), exec_eq_perform _ s, ?_⟩
  rw [s.perform_rxl (by omega)]
  exact ⟨rfl, rfl⟩

/-- Settles O41: a row that is no operation does what an Illegal word does, and R61 refuses its word. -/
theorem wireBytesAreIllegalOperations : Obligations.WireBytesAreIllegalOperations := by
  intro i hi
  have hwf : i.wellFormed = false := by
    revert i
    decide
  refine ⟨exec_of_not_wellFormed hwf, reservedCodesAreIllegal _ (.inl ?_)⟩
  revert i
  decide

end Sys2Proof.Machine
end

section
/-! SUPPORT. Steps and runs: every input of the host completes, and a host program is the sequence of its operations.
The statements O2, O6, O7, O9, O10 and O12. -/

namespace Sys2Proof.Machine

/-! ### Single steps -/

/-- Settles O10. -/
theorem idleHostKeepsState : Obligations.IdleHostKeepsState := by
  intro s hp
  simp only [step, hp]

/-- Settles O2. -/
theorem resetLeavesHostSide : Obligations.ResetLeavesHostSide := by
  intro s rest hp
  exact ⟨s.applyReset, step_reset hp, by simp [hp], rfl, rfl, rfl⟩

/-- The step of a word that decodes to an instruction: the state it leaves, one word further (R14). -/
theorem step_issue_perform {s : State} {w : Word} {rest : List HostInput} {i : Instr}
    (hp : s.pending = .issue w :: rest) (hd : decode w = .op i) : step s = .next (s.perform i).retire :=
  step_issue_operation hp hd (exec_eq_perform i s)

/-- Settles O7: an instruction leaves the host's side alone, so the step's own advance is all that changes there. -/
theorem stepRunsDecodedInstruction : Obligations.StepRunsDecodedInstruction := by
  intro s w rest i hp hd
  obtain ⟨hpending, hposition, -, -⟩ := (s.performs i).host
  refine ⟨s.perform i, exec_eq_perform i s, ?_⟩
  rw [step_issue_perform hp hd, State.retire, hpending, hposition, hp, List.tail_cons]

/-- An issued word, legal or Illegal, completes in one step that takes it off the inputs (R14, R33). -/
theorem step_issue {s : State} {w : Word} {rest : List HostInput} (hp : s.pending = .issue w :: rest) :
    ∃ t, step s = .next t ∧ t.pending = rest ∧ t.position = s.position + 1 := by
  cases hd : decode w with
  | op i =>
    obtain ⟨t, -, hstep⟩ := stepRunsDecodedInstruction s w rest i hp hd
    exact ⟨_, hstep, rfl, rfl⟩
  | illegal why => exact ⟨_, step_issue_illegal hp hd, by simp [hp], by simp⟩

theorem step_completes (s : State) : ∃ t, step s = .next t := by
  cases hp : s.pending with
  | nil => exact ⟨s, idleHostKeepsState s hp⟩
  | cons input rest =>
    cases input with
    | issue w =>
      obtain ⟨t, hstep, -⟩ := step_issue hp
      exact ⟨t, hstep⟩
    | read a => exact ⟨_, step_read hp⟩
    | reset => exact ⟨_, step_reset hp⟩

/-! ### Runs -/

theorem run_zero (s : State) : Sys2Proof.core.run 0 s = .next s := rfl

/-- Running any machine one step more, when its next step completes. -/
theorem coreRun_succ (M : Host.Core) {s t : M.State} (h : M.step s = .next t) (k : Nat) :
    M.run (k + 1) s = M.run k t := by
  simp only [Host.Core.run, h]

theorem run_succ {s t : State} (h : step s = .next t) (k : Nat) :
    Sys2Proof.core.run (k + 1) s = Sys2Proof.core.run k t := coreRun_succ Sys2Proof.core h k

/-- Settles O6: every step answers a next state, so every number of them does. -/
theorem noRunEverStops : Obligations.NoRunEverStops := by
  intro k
  induction k with
  | zero => exact fun s => ⟨s, run_zero s⟩
  | succ k ih =>
    intro s
    obtain ⟨t, hstep⟩ := step_completes s
    obtain ⟨u, hrun⟩ := ih t
    exact ⟨u, (run_succ hstep k).trans hrun⟩

/-- Settles O12: two steps of a read; what the first answers is on the host's side, so the second reads the same. -/
theorem readsHaveNoSideEffect : Obligations.ReadsHaveNoSideEffect := by
  intro s a rest hp
  rw [run_succ (step_read hp), run_succ (step_read rfl), run_zero, List.append_assoc]
  rfl

/-! ### Host programs -/

theorem State.runWords_nil (s : State) : s.runWords [] = .next { s with pending := [] } := rfl

/-- A program runs its first word and then its other words. -/
theorem State.runWords_cons_of_step {s t : State} {w : Word} {ws : List Word}
    (h : step (s.withProgram (w :: ws)) = .next t) (hp : t.pending = ws.map HostInput.issue) :
    s.runWords (w :: ws) = t.runWords ws := by
  have ht : t.withProgram ws = t := by rw [State.withProgram, ← hp]
  rw [State.runWords, List.length_cons, run_succ h, State.runWords, ht]

/-- Settles O9: one step for each word, by induction on the program. -/
theorem programPositionAdvancesOncePerWord : Obligations.ProgramPositionAdvancesOncePerWord := by
  intro s p
  induction p generalizing s with
  | nil => exact ⟨_, s.runWords_nil, rfl, rfl⟩
  | cons w ws ih =>
    obtain ⟨t, hstep, hpending, hposition⟩ := step_issue (s := s.withProgram (w :: ws)) (w := w) rfl
    obtain ⟨u, hrun, hu, hpos⟩ := ih t
    refine ⟨u, (State.runWords_cons_of_step hstep hpending).trans hrun, hu, ?_⟩
    rw [hpos, hposition, State.withProgram_position, List.length_cons]
    omega

end Sys2Proof.Machine
end

section
/-! SUPPORT. The address packer (R77 to R79): the packed byte as a number. The statements O20 and O21. -/

namespace Sys2Proof.Machine

/-- R77's expression over numbers: each part is taken modulo 16. -/
theorem pack_nat (m n : Nat) : ((m &&& 0xF) <<< 4) ||| (n &&& 0xF) = 16 * (m % 16) + n % 16 := by
  have hlow : ∀ n : Nat, n &&& 0xF = n % 16 := fun n => Nat.and_two_pow_sub_one_eq_mod n 4
  rw [hlow, hlow, ← Nat.shiftLeft_add_eq_or_of_lt (Nat.mod_lt _ (by decide) : n % 16 < 2 ^ 4), Nat.shiftLeft_eq,
    Nat.mul_comm]

/-- A nibble mask is a remainder modulo 16. -/
theorem toNat_and_nibble (a : Byte) : (a &&& 0x0F#8).toNat = a.toNat % 16 :=
  (BitVec.toNat_and a 0x0F#8).trans (Nat.and_two_pow_sub_one_eq_mod a.toNat 4)

/-- R77: the packed address as a number; the high nibble still fits the byte after the shift. -/
theorem packAddress_toNat (c d : Byte) : (packAddress c d).toNat = 16 * (c.toNat % 16) + d.toNat % 16 := by
  have hfits : (c &&& 0x0F#8).toNat <<< 4 < 2 ^ 8 := by
    rw [toNat_and_nibble, Nat.shiftLeft_eq]
    omega
  rw [packAddress, BitVec.toNat_or, BitVec.toNat_shiftLeft, Nat.mod_eq_of_lt hfits]
  exact pack_nat c.toNat d.toNat

theorem and_nibble_of_le {a : Byte} (h : a.toNat ≤ 15) : a &&& 0x0F#8 = a := by
  apply BitVec.eq_of_toNat_eq
  rw [toNat_and_nibble]
  omega

/-- Settles O20: the packed number depends on the operands modulo 16 only. -/
theorem mkaddrMaskingLaw : Obligations.MkaddrMaskingLaw := by
  refine ⟨fun a b s => ?masked, fun a b s ha hb => ?inRange, fun m n s => ?wide⟩
  case masked =>
    have hpack : packAddress a b = packAddress (a &&& 0x0F#8) (b &&& 0x0F#8) := by
      apply BitVec.eq_of_toNat_eq
      simp only [packAddress_toNat, toNat_and_nibble, Nat.mod_mod]
    rw [exec_eq_perform, exec_eq_perform, State.perform_mkaddr, State.perform_mkaddr, hpack]
  case inRange =>
    rw [exec_eq_perform, State.perform_mkaddr, packAddress, and_nibble_of_le ha, and_nibble_of_le hb]
  case wide =>
    have hpack : packAddress (BitVec.ofNat 8 m) (BitVec.ofNat 8 n) = BitVec.ofNat 8 (16 * (m % 16) + n % 16) := by
      apply BitVec.eq_of_toNat_eq
      simp only [packAddress_toNat, BitVec.toNat_ofNat]
      omega
    rw [exec_eq_perform, State.perform_mkaddr, hpack]

/-- Settles O21: as numbers, the pair is quotient and remainder of the byte by 16. -/
theorem packingIsBijection : Obligations.PackingIsBijection := by
  intro a
  have hhigh : ((a.extractLsb' 4 4).zeroExtend 8).toNat = a.toNat / 16 := by
    simp [BitVec.extractLsb'_toNat, Nat.shiftRight_eq_div_pow]
    omega
  have hlow : ((a.extractLsb' 0 4).zeroExtend 8).toNat = a.toNat % 16 := by
    simp [BitVec.extractLsb'_toNat]
    omega
  refine ⟨BitVec.eq_of_toNat_eq ?_, fun c d hc hd hpack => ?_⟩
  · rw [packAddress_toNat, hhigh, hlow]
    omega
  · have hnat := congrArg BitVec.toNat hpack
    rw [packAddress_toNat] at hnat
    exact ⟨BitVec.eq_of_toNat_eq (by omega), BitVec.eq_of_toNat_eq (by omega)⟩

end Sys2Proof.Machine
end

section
/-! SUPPORT. The laws of `sum8` (R81) and of the check of VCHK (R89 to R91). The statements O23, O30 and O31. -/

namespace Sys2Proof.Machine

/-! ### `sum8` -/

theorem sum8_append (bs cs : List Byte) : sum8 (bs ++ cs) = sum8 bs + sum8 cs := by
  simp [sum8, BitVec.ofNat_add]

@[simp] theorem sum8_singleton (b : Byte) : sum8 [b] = b := by
  rw [sum8_cons, sum8_nil, BitVec.add_zero]

theorem sum8_perm {bs cs : List Byte} (h : bs.Perm cs) : sum8 bs = sum8 cs := by
  rw [sum8, sum8, (h.map _).sum_eq]

/-- R81: signed and unsigned sums agree in their low 8 bits. -/
theorem sum8_eq_ofInt (bs : List Byte) : sum8 bs = BitVec.ofInt 8 (bs.map BitVec.toInt).sum := by
  induction bs with
  | nil => rfl
  | cons b bs ih => rw [sum8_cons, ih, List.map_cons, List.sum_cons, BitVec.ofInt_add, BitVec.ofInt_toInt]

/-- Changing one byte changes the sum by the difference of the two values. -/
theorem sum8_set {bs : List Byte} {j : Nat} (h : j < bs.length) (b : Byte) :
    sum8 (bs.set j b) + bs[j] = sum8 bs + b := by
  induction bs generalizing j with
  | nil => cases h
  | cons c bs ih =>
    cases j with
    | zero =>
      rw [List.set_cons_zero, List.getElem_cons_zero, sum8_cons, sum8_cons]
      ac_rfl
    | succ j =>
      have hj := ih (Nat.lt_of_succ_lt_succ h)
      rw [List.set_cons_succ, List.getElem_cons_succ, sum8_cons, sum8_cons, BitVec.add_assoc, hj, BitVec.add_assoc]

/-- Settles O23. -/
theorem sum8Laws : Obligations.Sum8Laws := by
  refine ⟨rfl, fun _ _ => sum8_perm, sum8_concat_toNat, fun bs => ?_, sum8_eq_ofInt⟩
  rw [sum8_append, sum8_singleton, BitVec.add_zero]

/-! ### The check of VCHK -/

theorem checksumMatches_concat (bs : List Byte) (m : Byte) : checksumMatches (bs ++ [m]) = (sum8 bs == m) := by
  simp [checksumMatches]

/-- R89 on covered bytes and a last byte: at least 4 bytes are covered, and the last one is their sum. -/
theorem checkFlag_concat (bs : List Byte) (m : Byte) :
    checkFlag (some (bs ++ [m])) = (decide (4 ≤ bs.length) && sum8 bs == m) := by
  rw [checkFlag, List.length_append, List.length_singleton, checksumMatches_concat]
  by_cases h : 4 ≤ bs.length
  · rw [if_neg (show ¬ bs.length + 1 < 5 by omega), decide_eq_true h, Bool.true_and]
  · rw [if_pos (show bs.length + 1 < 5 by omega), decide_eq_false h, Bool.false_and]

/-- The check sees of the covered bytes their sum and whether they are at least 4. -/
theorem checkFlag_congr {bs cs : List Byte} (hb : 4 ≤ bs.length) (hc : 4 ≤ cs.length) (hsum : sum8 cs = sum8 bs)
    (m : Byte) : checkFlag (some (cs ++ [m])) = checkFlag (some (bs ++ [m])) := by
  rw [checkFlag_concat, checkFlag_concat, hsum, decide_eq_true hb, decide_eq_true hc]

/-- Settles O30: a changed last byte is no longer the sum; a changed covered byte changes the sum. -/
theorem singleByteChangeIsDetected : Obligations.SingleByteChangeIsDetected := by
  intro bs j b hlen hpass hj hne
  obtain ⟨cs, m, rfl⟩ : ∃ cs m, bs = cs ++ [m] :=
    bs.eq_nil_or_concat'.resolve_left (List.ne_nil_of_length_pos (by omega))
  rw [checkFlag_concat, Bool.and_eq_true, beq_iff_eq] at hpass
  obtain ⟨-, hsum⟩ := hpass
  have hj1 : j < cs.length + 1 := by simpa using hj
  by_cases hlast : j = cs.length
  · subst hlast
    rw [List.set_append_right _ _ (Nat.le_refl _), Nat.sub_self, List.set_cons_zero, checkFlag_concat,
      Bool.and_eq_false_iff, beq_eq_false_iff_ne, hsum]
    exact .inr (by simpa using hne)
  · have hj' : j < cs.length := by omega
    rw [List.set_append_left _ _ hj', checkFlag_concat, Bool.and_eq_false_iff, beq_eq_false_iff_ne]
    refine .inr fun hsum' => hne ?_
    have hset := sum8_set hj' b
    rw [hsum', hsum, BitVec.add_right_inj] at hset
    rwa [List.getD_eq_getElem _ _ hj, List.getElem_append_left hj']

/-- Settles O31: each change leaves the sum of the covered bytes. -/
theorem checksumMissesReordering : Obligations.ChecksumMissesReordering := by
  refine ⟨fun bs cs m hlen hperm => ?permuted, fun pre mid post x y d m hlen => ?cancelling,
    fun pre post m hlen => ?zeroByte⟩
  case permuted => exact checkFlag_congr hlen (hperm.length_eq ▸ hlen) (sum8_perm hperm.symm) m
  case cancelling =>
    refine checkFlag_congr hlen (by simpa using hlen) ?_ m
    simp only [List.append_assoc, List.cons_append, sum8_append, sum8_cons]
    ring
  case zeroByte =>
    refine checkFlag_congr hlen (by simp at hlen ⊢; omega) ?_ m
    rw [sum8_append, sum8_append, sum8_cons, BitVec.zero_add]

end Sys2Proof.Machine
end

section
/-! SUPPORT. The error code each instruction ends with (R100, R110, R111), and that none reads the one it replaces
(R119). The statements O3, O47 and O48. -/

namespace Sys2Proof.Machine

/-! ### The error of a decoding -/

/-- The error kind of a decoding's answer, NONE for a Status. -/
def StatusResult.kind : StatusResult → ErrorKind
  | .ok _ => .none
  | .fail e => e

theorem State.commitStatus_err (s : State) (r : StatusResult) : (s.commitStatus r).err = r.kind.code := by
  cases r <;> rfl

/-- R94: with 9 bytes or more, what is left to fail is the markers, the checksum and the opcode. -/
theorem decodeStatus_code_of_length {bs : List Byte} (h : 9 ≤ bs.length) :
    (decodeStatus bs).kind.code ∈ [0#4, 2#4, 3#4, 4#4] := by
  rcases decodeStatus_cases bs with ⟨hlt, -⟩ | ⟨-, -, heq⟩ | ⟨-, -, -, -, heq⟩ | ⟨-, -, -, -, -, heq⟩ | ⟨-, -, -, -, -, heq⟩
  · omega
  all_goals simp [heq, StatusResult.kind, ErrorKind.code]

theorem decodeStatus_of_short {bs : List Byte} (h : bs.length < 9) : decodeStatus bs = .fail .frameTooShort := if_pos h

theorem parseInput_code (input : Option (List Byte)) :
    (parseInput input).kind.code ∈ [0#4, 1#4, 2#4, 3#4, 4#4] := by
  cases input with
  | none => simp [parseInput, StatusResult.kind, ErrorKind.code]
  | some bs =>
    rw [parseInput]
    by_cases h : bs.length < 9
    · simp [decodeStatus_of_short h, StatusResult.kind, ErrorKind.code]
    · have hmem := decodeStatus_code_of_length (Nat.le_of_not_lt h)
      simp only [List.mem_cons] at hmem ⊢
      tauto

theorem State.response_code (s : State) : s.response.kind.code ∈ [0#4, 2#4, 3#4, 4#4, 5#4, 6#4] := by
  rcases s.response_cases with ⟨-, h⟩ | ⟨-, -, -, h⟩ | ⟨-, -, h⟩ <;> rw [h]
  · simp [StatusResult.kind, ErrorKind.code]
  · simp [StatusResult.kind, ErrorKind.code]
  · have hmem := decodeStatus_code_of_length (Nat.le_of_eq (s.rxRead_length 9).symm)
    simp only [List.mem_cons] at hmem ⊢
    tauto

/-! ### The codes of each instruction -/

/-- The codes `ERR` may hold after an instruction (R100, R111; for the one-byte rows log entry 1). -/
def errorCodes : Instr → List (BitVec 4)
  | .mkaddr _ _ | .build0 _ _ | .build1 _ _ _ | .build2 _ _ _ | .vchk | .rxb _ _ => [0#4]
  | .rxl n _ => [if 256 < n.toNat then 8#4 else 0#4]
  | .pstat => [0#4, 1#4, 2#4, 3#4, 4#4]
  | .rxresp => [0#4, 2#4, 3#4, 4#4, 5#4, 6#4]
  | .getStatus | .unlockOne | .getAllBus | .unlockAll | .statusSingle | .statusAll | .setUnlockTime | .unlockTime
  | .setDelayOrBaud | .stx | .etx => [8#4]

theorem State.perform_err_mem (s : State) (i : Instr) : (s.perform i).err ∈ errorCodes i := by
  cases i with
  | pstat =>
    rw [s.perform_pstat, s.commitStatus_err]
    exact parseInput_code _
  | rxresp =>
    rw [s.perform_rxresp, s.commitStatus_err]
    exact s.response_code
  | rxl n p =>
    by_cases h : n.toNat < 257
    · simp [errorCodes, s.perform_rxl h, show ¬ 256 < n.toNat by omega]
    · simp [errorCodes, s.perform_rxl_too_long (show 256 < n.toNat by omega), show 256 < n.toNat by omega]
  | _ => exact List.mem_singleton_self _

/-- R112: no instruction writes CONNECT_FAILURE, nor any code that R110 does not list. -/
theorem errorCodes_legal {i : Instr} {e : BitVec 4} (h : e ∈ errorCodes i) :
    e.toNat ≤ 8 ∧ e ≠ ErrorKind.connectFailure.code := by
  have hall : ∀ e ∈ [0#4, 1#4, 2#4, 3#4, 4#4, 5#4, 6#4, 8#4], e.toNat ≤ 8 ∧ e ≠ ErrorKind.connectFailure.code := by
    decide
  apply hall
  cases i with
  | pstat | rxresp =>
    revert e
    decide
  | rxl n p =>
    rw [List.mem_singleton.1 h]
    split <;> decide
  | _ =>
    rw [List.mem_singleton.1 h]
    decide

/-- The reset state with the bytes received, all of them declared, present. -/
def State.holding (bs : List Byte) : State :=
  { State.reset with
    rxbuf := (List.range bs.length).zip bs
    rxlen := Fin.ofNat 257 bs.length
    rxpres := true }

/-- An input for each error that both decoders report: no marker, a wrong sum, an opcode that is none of a Status
(V4.7, V4.11, V4.16; E4's frame). -/
def failingInput (e : BitVec 4) : List Byte :=
  if e = 2#4 then List.replicate 9 0x00#8
  else if e = 3#4 then [0x02#8, 0x01#8, 0x35#8, 0xFF#8, 0x00#8, 0x00#8, 0xFF#8, 0x03#8, 0x38#8]
  else [0x02#8, 0x13#8, 0x38#8, 0x00#8, 0x00#8, 0x00#8, 0x00#8, 0x03#8, 0x50#8]

theorem pstat_reports : ∀ e ∈ [2#4, 3#4, 4#4], ((State.holding (failingInput e)).perform .pstat).err = e := by
  decide

theorem rxresp_reports : ∀ e ∈ [2#4, 3#4, 4#4], ((State.holding (failingInput e)).perform .rxresp).err = e := by
  decide

/-- Settles O47: the table of codes, and for each code of a decoder an input that makes it. -/
theorem errorCodesPerInstruction : Obligations.ErrorCodesPerInstruction := by
  refine ⟨fun i s => ⟨s.perform i, exec_eq_perform i s, ?codes⟩, fun e he => ?pstat, fun e he => ?rxresp⟩
  case codes =>
    have h := s.perform_err_mem i
    cases i with
    | pstat | rxresp => exact h
    | _ => exact List.mem_singleton.1 h
  case pstat =>
    rcases List.mem_cons.1 he with rfl | he
    · exact ⟨State.holding [], _, exec_eq_perform _ _, by decide⟩
    · exact ⟨_, _, exec_eq_perform _ _, pstat_reports e he⟩
  case rxresp =>
    by_cases h : e ∈ [2#4, 3#4, 4#4]
    · exact ⟨_, _, exec_eq_perform _ _, rxresp_reports e h⟩
    · have h56 : e = 5#4 ∨ e = 6#4 := by
        simp only [List.mem_cons, List.not_mem_nil] at he h
        tauto
      rcases h56 with rfl | rfl
      · exact ⟨State.holding [], _, exec_eq_perform _ _, by decide⟩
      · exact ⟨State.holding [0x02#8], _, exec_eq_perform _ _, by decide⟩

/-! ### No instruction reads `ERR` -/

theorem State.perform_withErr (s : State) (e : BitVec 4) (i : Instr) :
    ({ s with err := e } : State).perform i = s.perform i := by
  have hcommit : ∀ r, ({ s with err := e } : State).commitStatus r = s.commitStatus r := fun r => by cases r <;> rfl
  cases i with
  | pstat => exact hcommit _
  | rxresp => exact hcommit _
  | rxl n p =>
    by_cases h : n.toNat < 257
    · rw [State.perform_rxl _ h, State.perform_rxl _ h]
    · have h' : 256 < n.toNat := by omega
      rw [State.perform_rxl_too_long _ h', State.perform_rxl_too_long _ h']
      rfl
  | _ => rfl

/-- Settles O48. -/
theorem errIsOverwrittenNeverRead : Obligations.ErrIsOverwrittenNeverRead := by
  intro i s e
  refine ⟨s.perform i, exec_eq_perform i s, ?_⟩
  rw [exec_eq_perform, s.perform_withErr]

/-- Settles O3. -/
theorem decodingRightAfterReset : Obligations.DecodingRightAfterReset := ⟨rfl, rfl, rfl⟩

end Sys2Proof.Machine
end

section
/-! SUPPORT. What a build leaves in `TXBUF` (R82 to R88). The statements O24, O25, O26 and O27. -/

namespace Sys2Proof.Machine

/-! ### The frame of a build -/

/-- What the three frame bodies have in common: their length, and the markers at their ends (R65). -/
structure FrameBody (body : List Byte) : Prop where
  minLength : 4 ≤ body.length
  maxLength : body.length ≤ 6
  first : body.getD 0 0#8 = Config.stx
  last : body.getD (body.length - 1) 0#8 = Config.etx

theorem BuildBody.frameBody {i : Instr} {body : List Byte} (h : BuildBody i body) : FrameBody body := by
  cases h with
  | build0 a c => exact ⟨by simp [simpleBody], by simp [simpleBody], rfl, rfl⟩
  | build1 a c d => exact ⟨by simp [oneDataBody], by simp [oneDataBody], rfl, rfl⟩
  | build2 a c v => exact ⟨by simp [twoDataBody], by simp [twoDataBody], rfl, rfl⟩

/-- A build instruction has a body. -/
theorem exists_buildBody {i : Instr}
    (hi : (∃ a c, i = .build0 a c) ∨ (∃ a c d, i = .build1 a c d) ∨ ∃ a c v, i = .build2 a c v) :
    ∃ body, BuildBody i body := by
  rcases hi with ⟨a, c, rfl⟩ | ⟨a, c, d, rfl⟩ | ⟨a, c, v, rfl⟩
  · exact ⟨_, .build0 a c⟩
  · exact ⟨_, .build1 a c d⟩
  · exact ⟨_, .build2 a c v⟩

/-- The frame of a body: the body and its checksum (R82). -/
def frameOf (body : List Byte) : List Byte := body ++ [sum8 body]

@[simp] theorem frameOf_length (body : List Byte) : (frameOf body).length = body.length + 1 := by simp [frameOf]

theorem frameByte_frameOf {body : List Byte} {j : Nat} (h : j < body.length) :
    frameByte (frameOf body) j = body.getD j 0#8 := List.getD_append _ _ _ _ h

theorem frameByte_of_length_le {f : List Byte} {j : Nat} (h : f.length ≤ j) : frameByte f j = 0#8 :=
  List.getD_eq_default _ _ h

theorem checksumMatches_frameOf (body : List Byte) : checksumMatches (frameOf body) = true := by
  rw [frameOf, checksumMatches_concat, beq_self_eq_true]

theorem checkFlag_frameOf {body : List Byte} (h : 4 ≤ body.length) : checkFlag (some (frameOf body)) = true := by
  rw [frameOf, checkFlag_concat, decide_eq_true h, beq_self_eq_true, Bool.true_and]

section build

variable (s : State) {body : List Byte}

theorem State.frameByte_build {j : Nat} (h : j < 7) :
    frameByte (s.build body).txbuf.toList j = frameByte (frameOf body) j := by
  interval_cases j <;> rfl

theorem State.build_txlen_toNat (h : body.length ≤ 6) : (s.build body).txlen.toNat = body.length + 1 := by
  rw [s.build_txlen, BitVec.toNat_ofNat, List.length_append, List.length_singleton]
  omega

/-- The first bytes of `TXBUF`, byte by byte. -/
theorem State.txFrame_getElem {n j : Nat} (h : j < (s.txFrame n).length) :
    (s.txFrame n)[j] = frameByte s.txbuf.toList j := by
  have hj : j < s.txbuf.toList.length := by
    rw [State.txFrame, List.length_take] at h
    omega
  rw [frameByte, List.getD_eq_getElem _ _ hj]
  exact List.getElem_take

/-- R82: the bytes below `TXLEN` are the frame. -/
theorem State.txFrame_build (h : body.length ≤ 6) :
    (s.build body).txFrame (body.length + 1) = frameOf body := by
  have hlen : ((s.build body).txFrame (body.length + 1)).length = body.length + 1 := by
    rw [State.txFrame, List.length_take, Vector.length_toList]
    exact Nat.min_eq_left (Nat.succ_le_succ h)
  refine List.ext_getElem (hlen.trans (frameOf_length body).symm) fun j h1 h2 => ?_
  rw [State.txFrame_getElem, s.frameByte_build (by omega)]
  exact List.getD_eq_getElem _ _ h2

end build

/-! ### The three builds (R83 to R85, R88) -/

theorem State.build_eq_of_sum8 (s : State) {body : List Byte} {m : Byte} (h : sum8 body = m) :
    s.build body = { s with
      txbuf := #v[frameByte (body ++ [m]) 0, frameByte (body ++ [m]) 1, frameByte (body ++ [m]) 2,
        frameByte (body ++ [m]) 3, frameByte (body ++ [m]) 4, frameByte (body ++ [m]) 5, frameByte (body ++ [m]) 6]
      txlen := BitVec.ofNat 3 (body ++ [m]).length
      err := 0#4 } := by
  subst h
  rfl

/-- The markers' share of every frame's sum (R88). -/
theorem stx_add_etx : Config.stx + Config.etx = 0x05#8 := rfl

theorem sum8_simpleBody (a c : Byte) : sum8 (simpleBody a c) = 0x05#8 + a + c := by
  simp only [simpleBody, sum8_cons, sum8_nil, BitVec.add_zero, ← stx_add_etx]
  ac_rfl

theorem sum8_oneDataBody (a c d : Byte) : sum8 (oneDataBody a c d) = 0x05#8 + a + c + d := by
  simp only [oneDataBody, sum8_cons, sum8_nil, BitVec.add_zero, ← stx_add_etx]
  ac_rfl

theorem loByte_append (h l : Byte) : loByte (h ++ l) = l := BitVec.extractLsb'_append_eq_right

theorem hiByte_append (h l : Byte) : hiByte (h ++ l) = h := BitVec.extractLsb'_append_eq_left

theorem sum8_twoDataBody (a c h l : Byte) : sum8 (twoDataBody a c (h ++ l)) = 0x05#8 + a + c + l + h := by
  simp only [twoDataBody, loByte_append, hiByte_append, sum8_cons, sum8_nil, BitVec.add_zero, ← stx_add_etx]
  ac_rfl

/-- Settles O24. -/
theorem build0Result : Obligations.Build0Result := by
  intro a c s
  rw [exec_eq_perform, s.perform_build0, s.build_eq_of_sum8 (sum8_simpleBody a c)]
  rfl

/-- Settles O25. -/
theorem build1Result : Obligations.Build1Result := by
  intro a c d s
  rw [exec_eq_perform, s.perform_build1, s.build_eq_of_sum8 (sum8_oneDataBody a c d)]
  rfl

/-- Settles O26. -/
theorem build2Result : Obligations.Build2Result := by
  intro a c h l s
  rw [exec_eq_perform, s.perform_build2, s.build_eq_of_sum8 (sum8_twoDataBody a c h l), twoDataBody, loByte_append,
    hiByte_append]
  rfl

/-! ### A built frame as input (R87) -/

theorem State.rxInput_of_present {s : State} (h : s.rxpres = true) : s.rxInput = some (s.rxRead s.rxlen.val) :=
  if_pos h

/-- A receive buffer that holds a frame's bytes reads as the frame. -/
theorem State.rxRead_eq_of_frameByte {s : State} {f : List Byte}
    (h : ∀ j, j < f.length → s.rxByte j = frameByte f j) : s.rxRead f.length = f := by
  refine List.ext_getElem (s.rxRead_length _) fun j h1 h2 => ?_
  rw [← List.getD_eq_getElem _ 0#8 h1, s.rxRead_getD h2, h j h2]
  exact List.getD_eq_getElem _ _ h2

/-- VCHK passes a frame whose checksum was computed by R82. -/
theorem State.checkFlag_of_holds_frame {s : State} {body : List Byte} (hbody : 4 ≤ body.length)
    (hpres : s.rxpres = true) (hlen : s.rxlen.val = body.length + 1)
    (h : ∀ j, j < body.length + 1 → s.rxByte j = frameByte (frameOf body) j) : checkFlag s.rxInput = true := by
  rw [State.rxInput_of_present hpres, hlen, ← frameOf_length, State.rxRead_eq_of_frameByte (by simpa using h)]
  exact checkFlag_frameOf hbody

/-- Settles O27: the bytes below `TXLEN` are a body and its sum, which is what VCHK checks. -/
theorem builtFramePassesVchk : Obligations.BuiltFramePassesVchk := by
  intro i s t u hi hexec hpres hlen hbytes
  obtain ⟨body, hb⟩ := exists_buildBody hi
  obtain ⟨hmin, hmax, -, -⟩ := hb.frameBody
  have ht : s.build body = t := (hb.perform s).symm.trans (State.perform_eq_of_exec hexec)
  subst ht
  rw [s.build_txlen_toNat hmax] at hlen hbytes
  have hcheck : checkFlag u.rxInput = true := State.checkFlag_of_holds_frame hmin hpres hlen fun j hj =>
    (hbytes j hj).trans (s.frameByte_build (by omega))
  rw [exec_eq_perform, u.perform_vchk, hcheck, u.setCheckFlag_eq]

end Sys2Proof.Machine
end

section
/-! SUPPORT. Legal states (R13, R19, R20, R23, R26, R110): each part of `State.Legal` speaks of one register group, so an
input that leaves the group leaves the part, and an input that writes it writes a legal value. The statements O4 and
O5. -/

namespace Sys2Proof.Machine

/-! ### Each part depends on its own registers -/

theorem State.TxLegal.congr {s t : State} (h : s.TxLegal) (hbuf : t.txbuf = s.txbuf) (hlen : t.txlen = s.txlen) :
    t.TxLegal := by
  obtain ⟨length, tail, markers, sum⟩ := h
  constructor <;> simpa only [State.txFrame, hbuf, hlen]

theorem State.StatusLegal.congr {s t : State} (h : s.StatusLegal)
    (hregs : t.stValid = s.stValid ∧ t.stAddr = s.stAddr ∧ t.stCmd = s.stCmd ∧ t.stLock = s.stLock ∧
      t.stOcc = s.stOcc) : t.StatusLegal := by
  obtain ⟨hvalid, haddr, hcmd, hlock, hocc⟩ := hregs
  obtain ⟨invalid, valid⟩ := h
  constructor <;> simpa only [hvalid, haddr, hcmd, hlock, hocc]

/-! ### What is written is legal -/

/-- R82, R86: a build leaves a legal `TXBUF` and `TXLEN`, whatever its operands. -/
theorem State.build_txLegal (s : State) {body : List Byte} (h : FrameBody body) : (s.build body).TxLegal := by
  obtain ⟨hmin, hmax, hfirst, hlast⟩ := h
  have hlen := s.build_txlen_toNat hmax
  refine ⟨?length, fun j hlo hhi => ?tail, fun _ => ⟨?stx, ?etx⟩, fun _ => ?sum⟩
  case length =>
    have h567 : body.length = 4 ∨ body.length = 5 ∨ body.length = 6 := by omega
    rw [hlen]
    rcases h567 with h | h | h <;> simp [h]
  case tail =>
    rw [s.frameByte_build hhi, frameByte_of_length_le (by rw [frameOf_length, ← hlen]; exact hlo)]
  case stx => rw [s.frameByte_build (by omega), frameByte_frameOf (by omega), hfirst]
  case etx =>
    rw [hlen, show body.length + 1 - 2 = body.length - 1 by omega, s.frameByte_build (by omega),
      frameByte_frameOf (by omega), hlast]
  case sum => rw [hlen, s.txFrame_build hmax, checksumMatches_frameOf]

/-- R93, R96: a committed answer leaves all of a Status or nothing. -/
theorem State.commitStatus_statusLegal (s : State) {r : StatusResult} (hr : r.Sound) :
    (s.commitStatus r).StatusLegal := by
  cases r with
  | ok st => exact ⟨fun h => by simp at h, fun _ => hr⟩
  | fail e => exact ⟨fun _ => ⟨rfl, rfl, rfl, rfl⟩, fun h => by simp at h⟩

/-- Settles O4. -/
theorem legalAtReset : Obligations.LegalAtReset where
  memory := State.reset_memory_wf
  tx := ⟨by decide, fun _ _ => State.frameByte_reset_txbuf, fun h => absurd rfl h, fun h => absurd rfl h⟩
  status := ⟨fun _ => ⟨rfl, rfl, rfl, rfl⟩, fun h => by cases h⟩
  err := by decide

/-! ### Every instruction keeps each part -/

section kept

variable {s t : State} {i : Instr}

theorem Performs.memory_wf (h : Performs s i t) (hs : Memory.wf s.rxbuf = true) : Memory.wf t.rxbuf = true := by
  cases h with
  | loadByte x b => exact Memory.wf_write b hs x.isLt
  | status => rwa [s.commitStatus_rxbuf]
  | _ => exact hs

theorem Performs.txLegal (h : Performs s i t) (hs : s.TxLegal) : t.TxLegal := by
  cases h with
  | build hb => exact s.build_txLegal hb.frameBody
  | status => exact hs.congr (s.commitStatus_txbuf _) (s.commitStatus_txlen _)
  | _ => exact hs.congr rfl rfl

theorem Performs.statusLegal (h : Performs s i t) (hs : s.StatusLegal) : t.StatusLegal := by
  cases h with
  | status _ hr => exact s.commitStatus_statusLegal hr
  | _ => exact hs.congr ⟨rfl, rfl, rfl, rfl, rfl⟩

end kept

theorem State.Legal.perform {s : State} (h : s.Legal) (i : Instr) : (s.perform i).Legal where
  memory := (s.performs i).memory_wf h.memory
  tx := (s.performs i).txLegal h.tx
  status := (s.performs i).statusLegal h.status
  err := errorCodes_legal (s.perform_err_mem i)

/-! ### Every input keeps the state legal -/

/-- Legality reads no more than the registers that its parts name. -/
theorem State.Legal.congr {s t : State} (h : s.Legal) (hmem : t.rxbuf = s.rxbuf) (hbuf : t.txbuf = s.txbuf)
    (hlen : t.txlen = s.txlen)
    (hregs : t.stValid = s.stValid ∧ t.stAddr = s.stAddr ∧ t.stCmd = s.stCmd ∧ t.stLock = s.stLock ∧
      t.stOcc = s.stOcc)
    (herr : t.err.toNat ≤ 8 ∧ t.err ≠ ErrorKind.connectFailure.code) : t.Legal where
  memory := hmem ▸ h.memory
  tx := h.tx.congr hbuf hlen
  status := h.status.congr hregs
  err := herr

theorem State.Legal.illegalOp {s : State} (h : s.Legal) : s.illegalOp.Legal :=
  h.congr rfl rfl rfl ⟨rfl, rfl, rfl, rfl, rfl⟩ (show (8#4).toNat ≤ 8 ∧ 8#4 ≠ 7#4 by decide)

theorem State.Legal.retire {s : State} (h : s.Legal) : s.retire.Legal :=
  h.congr rfl rfl rfl ⟨rfl, rfl, rfl, rfl, rfl⟩ h.err

theorem State.Legal.answerRead {s : State} (h : s.Legal) (a : Half) : (s.answerRead a).Legal :=
  h.congr rfl rfl rfl ⟨rfl, rfl, rfl, rfl, rfl⟩ h.err

theorem State.applyReset_legal (s : State) : s.applyReset.Legal :=
  State.Legal.congr legalAtReset rfl rfl rfl ⟨rfl, rfl, rfl, rfl, rfl⟩ legalAtReset.err

/-- Settles O5: a case for each input of the host (`step_cases`). -/
theorem legalKeptByEveryStep : Obligations.LegalKeptByEveryStep := by
  intro s t hs hstep
  rcases step_cases hstep with ⟨-, rfl⟩ | ⟨w, rest, i, u, -, -, hexec, rfl⟩ | ⟨w, rest, why, -, -, rfl⟩ |
    ⟨a, rest, -, rfl⟩ | ⟨rest, -, rfl⟩
  case inl => exact hs
  case inr.inl =>
    have hu : u.Legal := State.perform_eq_of_exec hexec ▸ hs.perform i
    exact hu.retire
  case inr.inr.inl => exact hs.illegalOp.retire
  case inr.inr.inr.inl => exact hs.answerRead a
  case inr.inr.inr.inr => exact s.applyReset_legal

end Sys2Proof.Machine
end

section
/-! SUPPORT. Decoding and encoding agree (R53, R61), and the rows of the opcode table are R61's decoder. The statements
O13, O14, O15 and O16. -/

namespace Sys2Proof

/-! ### The decoder reads what the encoder writes -/

theorem rxl_flag_field (p : Bool) :
    (0#7 ++ BitVec.ofBool p).extractLsb' 1 7 = 0#7 ∧ (0#7 ++ BitVec.ofBool p).getLsbD 0 = p := by
  cases p <;> exact ⟨rfl, rfl⟩

/-- R61's decoder on the word of an operation. -/
theorem decodeOperation_encode {i : Instr} (hi : i.wellFormed = true) : decodeOperation (encode i) = .op i := by
  cases i with
  | mkaddr a b => rw [encode, decodeOperation_operationWord]; rfl
  | build0 a c => rw [encode, decodeOperation_operationWord]; rfl
  | build1 a c d => rw [encode, decodeOperation_operationWord]; rfl
  | build2 a c v => rw [encode, decodeOperation_operationWord, decodeFields_build2, half_append]
  | vchk | pstat | rxresp => rfl
  | rxb x b => rw [encode, decodeOperation_operationWord]; rfl
  | rxl n p =>
    obtain ⟨hpad, hbit⟩ := rxl_flag_field p
    rw [encode, decodeOperation_operationWord, decodeFields_rxl, half_append, hpad, hbit]
    rfl
  | getStatus | unlockOne | getAllBus | unlockAll | statusSingle | statusAll | setUnlockTime | unlockTime
  | setDelayOrBaud | stx | etx => cases hi

/-- Settles O13: an operation by R61's decoder, a one-byte row by the table's names for Illegal words. -/
theorem decodeEncodeAgree : Obligations.DecodeEncodeAgree := by
  refine ⟨fun i => ?_, fun i => decodeOperation_encode⟩
  cases hi : i.wellFormed with
  | true => exact decode_of_operation (decodeOperation_encode hi)
  | false =>
    cases i with
    | mkaddr | build0 | build1 | build2 | vchk | pstat | rxresp | rxb | rxl => cases hi
    | getStatus | unlockOne | getAllBus | unlockAll | statusSingle | statusAll | setUnlockTime | unlockTime
    | setDelayOrBaud | stx | etx => decide

/-! ### The encoder writes what the decoder reads -/

theorem legalIf_eq_op_iff (ok : Bool) (i j : Instr) : legalIf ok i = .op j ↔ ok = true ∧ i = j := by
  cases ok <;> simp [legalIf]

/-- R58, R59: the nine operation codes and the reserved ones. -/
theorem opcode_cases (opc : Byte) :
    opc = 0x01#8 ∨ opc = 0x02#8 ∨ opc = 0x03#8 ∨ opc = 0x04#8 ∨ opc = 0x05#8 ∨ opc = 0x06#8 ∨ opc = 0x07#8 ∨
      opc = 0x08#8 ∨ opc = 0x09#8 ∨ ReservedCode opc := by
  unfold ReservedCode
  bv_omega

/-- RXL's flag byte, its seven reserved bits zero (R55). -/
theorem flag_byte_cases {b : Byte} (hb : b.extractLsb' 1 7 = 0#7) : b = 0#8 ∨ b = 1#8 := by
  have hnat := congrArg BitVec.toNat hb
  simp only [BitVec.extractLsb'_toNat, Nat.shiftRight_eq_div_pow, BitVec.toNat_ofNat] at hnat
  bv_omega

theorem flag_byte_eq {b : Byte} (hb : b.extractLsb' 1 7 = 0#7) : 0#7 ++ BitVec.ofBool (b.getLsbD 0) = b := by
  rcases flag_byte_cases hb with rfl | rfl <;> rfl

/-- The mask of RXL's row leaves the seven reserved bits of the flag byte. -/
theorem and_flag_mask_beq_zero (b : Byte) : (b &&& 0xFE#8 == 0#8) = (b.extractLsb' 1 7 == 0#7) := by
  rw [Bool.eq_iff_iff, beq_iff_eq, beq_iff_eq]
  refine ⟨fun h => ?_, fun h => by rcases flag_byte_cases h with rfl | rfl <;> rfl⟩
  have hbits := congrArg (BitVec.extractLsb' 1 7) h
  rw [BitVec.extractLsb'_and] at hbits
  exact BitVec.and_allOnes.symm.trans hbits

/-- An operation with reserved operand fields: what the check leaves to show is that the encoder writes them zero. -/
theorem encode_of_legalIf {ok : Bool} {i j : Instr} {w : Word} (hi : i.wellFormed = true) (hd : legalIf ok i = .op j)
    (henc : ok = true → encode i = w) : j.wellFormed = true ∧ encode j = w := by
  obtain ⟨hok, rfl⟩ := (legalIf_eq_op_iff ok i j).1 hd
  exact ⟨hi, henc hok⟩

/-- What R61's decoder reads from fields is an operation, and its encoding has exactly these fields. -/
theorem encode_of_decodeFields {opc a b h l : Byte} {i : Instr} (hd : decodeFields opc a b h l = .op i) :
    i.wellFormed = true ∧ encode i = operationWord opc a b h l := by
  rcases opcode_cases opc with rfl | rfl | rfl | rfl | rfl | rfl | rfl | rfl | rfl | hres
  · exact encode_of_legalIf rfl hd fun hz => by simp_all [encode]
  · exact encode_of_legalIf rfl hd fun hz => by simp_all [encode]
  · exact encode_of_legalIf rfl hd fun hz => by simp_all [encode]
  · cases (decodeFields_build2 a b h l).symm.trans hd
    exact ⟨rfl, by rw [encode, BitVec.extractLsb'_append_eq_left, BitVec.extractLsb'_append_eq_right]⟩
  · exact encode_of_legalIf rfl hd fun hz => by simp_all [encode]
  · exact encode_of_legalIf rfl hd fun hz => by simp_all [encode]
  · exact encode_of_legalIf rfl hd fun hz => by simp_all [encode]
  · exact encode_of_legalIf rfl hd fun hz => by simp_all [encode]
  · refine encode_of_legalIf rfl hd fun hz => ?_
    obtain ⟨ha, hb⟩ := Bool.and_eq_true_iff.1 hz
    rw [encode, BitVec.extractLsb'_append_eq_left, BitVec.extractLsb'_append_eq_right, flag_byte_eq (beq_iff_eq.1 hb),
      beq_iff_eq.1 ha]
  · cases (decodeFields_reservedCode hres a b h l).symm.trans hd

/-- Settles O14: a legal word has `RSV` zero, so it is the word of its fields, which the encoder writes again. -/
theorem operationHasOneWord : Obligations.OperationHasOneWord := by
  intro w i hd
  by_cases hrsv : rsvField w = 0#24
  · rw [decodeOperation_of_rsv_eq hrsv] at hd
    obtain ⟨hwf, henc⟩ := encode_of_decodeFields hd
    exact ⟨hwf, henc.trans (operationWord_fields w hrsv)⟩
  · cases (decodeOperation_of_rsv_ne hrsv).symm.trans hd

/-- Settles O16: the words are fixed, so the encoder gives them, and R61's decoder reads them back. -/
theorem encodingExamples : Obligations.EncodingExamples := by
  unfold Obligations.EncodingExamples
  decide

/-! ### The rows of the opcode table -/

/-- A row as the fields it speaks of: its operation code, and the bits of each operand field that must be zero. -/
def fieldRow (name : String) (code ma mb mh ml : Byte) : OpcodeRow where
  mnemonic := name
  pattern := operationWord code 0#8 0#8 0#8 0#8
  mask := 0xFF#8 ++ 0xFFFFFF#24 ++ ma ++ mb ++ mh ++ ml

theorem operationRows_eq_fieldRows : operationRows =
    [ fieldRow "MKADDR" 0x01#8 0x00#8 0x00#8 0xFF#8 0xFF#8, fieldRow "BUILD0" 0x02#8 0x00#8 0x00#8 0xFF#8 0xFF#8,
      fieldRow "BUILD1" 0x03#8 0x00#8 0x00#8 0xFF#8 0x00#8, fieldRow "BUILD2" 0x04#8 0x00#8 0x00#8 0x00#8 0x00#8,
      fieldRow "VCHK" 0x05#8 0xFF#8 0xFF#8 0xFF#8 0xFF#8, fieldRow "PSTAT" 0x06#8 0xFF#8 0xFF#8 0xFF#8 0xFF#8,
      fieldRow "RXRESP" 0x07#8 0xFF#8 0xFF#8 0xFF#8 0xFF#8, fieldRow "RXB" 0x08#8 0x00#8 0xFF#8 0xFF#8 0x00#8,
      fieldRow "RXL" 0x09#8 0xFF#8 0xFE#8 0x00#8 0x00#8 ] := by
  decide

theorem operationWord_inj {opc a b h l opc' a' b' h' l' : Byte} :
    operationWord opc a b h l = operationWord opc' a' b' h' l' ↔
      opc = opc' ∧ a = a' ∧ b = b' ∧ h = h' ∧ l = l' := by
  refine ⟨fun hw => ⟨?_, ?_, ?_, ?_, ?_⟩, fun ⟨h1, h2, h3, h4, h5⟩ => by rw [h1, h2, h3, h4, h5]⟩
  · simpa using congrArg opcField hw
  · simpa using congrArg aField hw
  · simpa using congrArg bField hw
  · simpa using congrArg hField hw
  · simpa using congrArg lField hw

/-- A word matches a row when its code is the row's and the row's zero bits are zero (R61). -/
theorem rowMatches_fieldRow (name : String) (opc a b h l code ma mb mh ml : Byte) :
    rowMatches (operationWord opc a b h l) (fieldRow name code ma mb mh ml) =
      (opc == code && (a &&& ma == 0#8) && (b &&& mb == 0#8) && (h &&& mh == 0#8) && (l &&& ml == 0#8)) := by
  rw [rowMatches, fieldRow, Laws.operationWord_and, Bool.eq_iff_iff]
  simp only [Bool.and_eq_true, beq_iff_eq, operationWord_inj, and_assoc]

theorem rsvField_and (v w : Word) : rsvField (v &&& w) = rsvField v &&& rsvField w := BitVec.extractLsb'_and

/-- A word whose `RSV` is not zero matches no row: every row's mask has all of `RSV` (R60, R61). -/
theorem operationRows_filter_of_rsv_ne {w : Word} (hw : rsvField w ≠ 0#24) :
    operationRows.filter (rowMatches w) = [] := by
  have hrows : ∀ r ∈ operationRows, rsvField r.mask = BitVec.allOnes 24 ∧ rsvField r.pattern = 0#24 := by decide
  rw [List.filter_eq_nil_iff]
  intro r hr hmatch
  obtain ⟨hmask, hpattern⟩ := hrows r hr
  have hrsv := congrArg rsvField (beq_iff_eq.1 hmatch)
  rw [rsvField_and, hmask, hpattern, BitVec.and_allOnes] at hrsv
  exact hw hrsv

/-- `rows` are the rows of a word that decodes to `d`: the one row of its operation, or none for an Illegal word. -/
def RowsOf (d : Decoded) (rows : List OpcodeRow) : Prop :=
  (∃ i, d = .op i ∧ rows.map OpcodeRow.mnemonic = [mnemonicOf i]) ∨ (∃ why, d = .illegal why ∧ rows = [])

theorem rowsOf_legalIf {ok : Bool} {i : Instr} {rows : List OpcodeRow} {r : OpcodeRow}
    (hname : r.mnemonic = mnemonicOf i) (hrows : rows = if ok then [r] else []) : RowsOf (legalIf ok i) rows := by
  cases ok with
  | true => exact .inl ⟨i, rfl, by rw [hrows, if_pos rfl, List.map_singleton, hname]⟩
  | false => exact .inr ⟨_, rfl, hrows⟩

/-- The rows that match have the word's own code, so at most one does; its mask then checks what the decoder checks. -/
theorem rowsOf_decodeFields (opc a b h l : Byte) :
    RowsOf (decodeFields opc a b h l) (operationRows.filter (rowMatches (operationWord opc a b h l))) := by
  rw [operationRows_eq_fieldRows]
  simp only [List.filter_cons, List.filter_nil, rowMatches_fieldRow, Laws.and_ones, Laws.and_zeros,
    and_flag_mask_beq_zero, beq_self_eq_true, Bool.and_true]
  rcases opcode_cases opc with rfl | rfl | rfl | rfl | rfl | rfl | rfl | rfl | rfl | hres
  · exact rowsOf_legalIf (r := fieldRow "MKADDR" 0x01#8 0x00#8 0x00#8 0xFF#8 0xFF#8) rfl (by simp)
  · exact rowsOf_legalIf (r := fieldRow "BUILD0" 0x02#8 0x00#8 0x00#8 0xFF#8 0xFF#8) rfl (by simp)
  · exact rowsOf_legalIf (r := fieldRow "BUILD1" 0x03#8 0x00#8 0x00#8 0xFF#8 0x00#8) rfl (by simp)
  · exact .inl ⟨_, decodeFields_build2 a b h l, rfl⟩
  · exact rowsOf_legalIf (r := fieldRow "VCHK" 0x05#8 0xFF#8 0xFF#8 0xFF#8 0xFF#8) rfl (by simp)
  · exact rowsOf_legalIf (r := fieldRow "PSTAT" 0x06#8 0xFF#8 0xFF#8 0xFF#8 0xFF#8) rfl (by simp)
  · exact rowsOf_legalIf (r := fieldRow "RXRESP" 0x07#8 0xFF#8 0xFF#8 0xFF#8 0xFF#8) rfl (by simp)
  · exact rowsOf_legalIf (r := fieldRow "RXB" 0x08#8 0x00#8 0xFF#8 0xFF#8 0x00#8) rfl (by simp)
  · exact rowsOf_legalIf (r := fieldRow "RXL" 0x09#8 0xFF#8 0xFE#8 0x00#8 0x00#8) rfl (by simp)
  · have hcode : ∀ k : Byte, 1 ≤ k.toNat → k.toNat ≤ 9 → (opc == k) = false := fun k hlo hhi =>
      beq_eq_false_iff_ne.2 (hres.ne k hlo hhi)
    refine .inr ⟨_, decodeFields_reservedCode hres a b h l, ?_⟩
    simp [hcode]

/-- Settles O15: with `RSV` zero a word is the word of its fields; otherwise it is Illegal and no mask passes it. -/
theorem wordMatchesOneRowOrNone : Obligations.WordMatchesOneRowOrNone := by
  intro w
  by_cases hrsv : rsvField w = 0#24
  · have h := rowsOf_decodeFields (opcField w) (aField w) (bField w) (hField w) (lField w)
    rwa [operationWord_fields w hrsv, ← decodeOperation_of_rsv_eq hrsv] at h
  · exact .inr ⟨_, decodeOperation_of_rsv_ne hrsv, operationRows_filter_of_rsv_ne hrsv⟩

end Sys2Proof
end

section
/-! SUPPORT. A host program that encodes operations leaves what performing them in order leaves (R14), and the assembler
writes such programs (R73 to R75). The statements O50 and O51. -/

namespace Sys2Proof.Machine

/-! ### The host's side plays no part in an operation -/

/-- The state with other inputs to come and another position. -/
def State.withHost (s : State) (p : List HostInput) (k : Nat) : State := { s with pending := p, position := k }

theorem State.perform_withHost (s : State) (p : List HostInput) (k : Nat) (i : Instr) :
    (s.withHost p k).perform i = (s.perform i).withHost p k := by
  have hcommit : ∀ r, (s.withHost p k).commitStatus r = (s.commitStatus r).withHost p k := fun r => by cases r <;> rfl
  cases i with
  | pstat => exact hcommit _
  | rxresp => exact hcommit _
  | rxl n b =>
    by_cases h : n.toNat < 257
    · rw [State.perform_rxl _ h, State.perform_rxl _ h]
      rfl
    · have h' : 256 < n.toNat := by omega
      rw [State.perform_rxl_too_long _ h', State.perform_rxl_too_long _ h']
      rfl
  | _ => rfl

/-- The state that a list of operations leaves, performed in order. -/
def State.performAll (s : State) (ops : List Instr) : State := ops.foldl State.perform s

@[simp] theorem State.performAll_nil (s : State) : s.performAll [] = s := rfl

@[simp] theorem State.performAll_cons (s : State) (i : Instr) (ops : List Instr) :
    s.performAll (i :: ops) = (s.perform i).performAll ops := rfl

theorem State.performAll_append (s : State) (ops ops' : List Instr) :
    s.performAll (ops ++ ops') = (s.performAll ops).performAll ops' := List.foldl_append

theorem State.performAll_withHost (s : State) (p : List HostInput) (k : Nat) (ops : List Instr) :
    (s.withHost p k).performAll ops = (s.performAll ops).withHost p k := by
  induction ops generalizing s with
  | nil => rfl
  | cons i ops ih => rw [State.performAll_cons, s.perform_withHost, ih, State.performAll_cons]

/-- Running the words of a list of operations performs them, and leaves no input and the position past them (R14). -/
theorem State.runWords_encode (s : State) (ops : List Instr) :
    s.runWords (ops.map encode) = .next ((s.performAll ops).withHost [] (s.position + ops.length)) := by
  induction ops generalizing s with
  | nil => rfl
  | cons i ops ih =>
    have hstep : step (s.withProgram ((i :: ops).map encode)) =
        .next ((s.perform i).withHost ((ops.map encode).map HostInput.issue) (s.position + 1)) := by
      rw [step_issue_perform rfl (decodeEncodeAgree.1 i)]
      exact congrArg (fun t => Host.Outcome.next (State.retire t)) (s.perform_withHost _ s.position i)
    rw [List.map_cons, State.runWords_cons_of_step hstep rfl, ih, State.performAll_withHost, State.performAll_cons,
      List.length_cons, Nat.add_comm ops.length, ← Nat.add_assoc]
    rfl

/-! ### What the assembler writes -/

theorem assemble_of_wellFormed {src : Source} (h : src.wellFormed = true) :
    assemble src = some ((expand src).map encode) := (assemble_eq_some_iff src _).2 ⟨h, rfl⟩

theorem wellFormed_of_mem_loadBytes {k : Nat} {bs : List Nat} {i : Instr} (h : i ∈ loadBytes k bs) :
    i.wellFormed = true := by
  induction bs generalizing k with
  | nil => cases h
  | cons b bs ih =>
    rcases List.mem_cons.1 h with rfl | h
    · rfl
    · exact ih h

/-- A statement stands for operations only (R73 to R75). -/
theorem wellFormed_of_mem_expand {src : Source} {i : Instr} (h : i ∈ expand src) : i.wellFormed = true := by
  cases src with
  | rxframe bytes =>
    rcases List.mem_append.1 h with h | h
    · exact wellFormed_of_mem_loadBytes h
    · cases List.mem_singleton.1 h
      rfl
  | _ =>
    cases List.mem_singleton.1 h
    rfl

/-- Settles O50: the decoder reads each operation back from its word. -/
theorem assembledCodeIsLegal : Obligations.AssembledCodeIsLegal := by
  refine fun src => ⟨fun h => ?_, fun h => ⟨_, assemble_of_wellFormed h, ?_⟩⟩
  · rw [assemble, h, if_neg Bool.false_ne_true]
  · rw [List.map_map]
    exact List.map_congr_left fun i hi => decodeOperation_encode (wellFormed_of_mem_expand hi)

/-- R74: the address is packed by the MKADDR rule. -/
theorem sourceAddress_eq (cu door : Nat) :
    sourceAddress cu door = BitVec.ofNat 8 (((cu &&& 0xF) <<< 4) ||| (door &&& 0xF)) := by
  apply BitVec.eq_of_toNat_eq
  rw [sourceAddress, packAddress_toNat, pack_nat]
  simp only [BitVec.toNat_ofNat]
  omega

/-- A BUILD0 whose address is packed by the MKADDR rule assembles, whatever was packed. -/
theorem assemble_build0_packed (cu door : Nat) {cmd : Nat} (hcmd : cmd ≤ 255) :
    assemble (.build0 (((cu &&& 0xF) <<< 4) ||| (door &&& 0xF)) cmd) =
      some [encode (.build0 (sourceAddress cu door) (BitVec.ofNat 8 cmd))] := by
  have haddr : ((cu &&& 0xF) <<< 4) ||| (door &&& 0xF) ≤ 255 := by
    rw [pack_nat]
    omega
  rw [assemble_of_wellFormed (by simp [Source.wellFormed, isByte, haddr, hcmd]), sourceAddress_eq]
  rfl

/-- Settles O51: each pseudo-instruction stands for the BUILD0 of its packed address. -/
theorem commandPseudoInstructions : Obligations.CommandPseudoInstructions := by
  intro cu door hcu hdoor
  have hcu' : isByte cu = true := decide_eq_true hcu
  have hdoor' : isByte door = true := decide_eq_true hdoor
  have hall := assemble_build0_packed cu 0 (cmd := 0x33) (by decide)
  rw [Nat.zero_and, Nat.or_zero] at hall
  refine ⟨⟨_, assemble_of_wellFormed ?_, assemble_build0_packed cu door (by decide)⟩,
    ⟨_, assemble_of_wellFormed ?_, assemble_build0_packed cu door (by decide)⟩,
    ⟨_, assemble_of_wellFormed hcu', hall⟩⟩
  all_goals exact Bool.and_eq_true_iff.2 ⟨hcu', hdoor'⟩

end Sys2Proof.Machine
end

section
/-! SUPPORT. Loading the receive buffer (R75, R105 to R109): what RXFRAME's operations leave, a built frame loaded back,
and the order of a load. The statements O28, O44 and O45. -/

namespace Sys2Proof.Machine

/-! ### A run of RXBs -/

theorem byte_toNat_of_lt {n : Nat} (h : n < 256) : (BitVec.ofNat 8 n).toNat = n := by
  rw [BitVec.toNat_ofNat]
  omega

/-- RXBs write the receive buffer and `ERR` only. -/
theorem State.performAll_loadBytes_frame (s : State) (k : Nat) (bs : List Nat) :
    s.performAll (loadBytes k bs) =
      { s with rxbuf := (s.performAll (loadBytes k bs)).rxbuf, err := (s.performAll (loadBytes k bs)).err } := by
  induction bs generalizing s k with
  | nil => rfl
  | cons b bs ih =>
    rw [loadBytes, State.performAll_cons]
    exact ih _ (k + 1)

/-- RXBs at the indices from `k` on leave the bytes below `k` and past the last of them. -/
theorem State.rxByte_loadBytes_outside (s : State) {k j : Nat} {bs : List Nat} (hk : k + bs.length ≤ 256)
    (hj : j < k ∨ k + bs.length ≤ j) : (s.performAll (loadBytes k bs)).rxByte j = s.rxByte j := by
  induction bs generalizing s k with
  | nil => rfl
  | cons b bs ih =>
    rw [List.length_cons] at hk hj
    rw [loadBytes, State.performAll_cons, ih _ (by omega) (by omega)]
    refine s.rxByte_perform_rxb_other _ ?_
    rw [byte_toNat_of_lt (by omega)]
    omega

/-- RXBs at the indices from `k` on leave their bytes there. -/
theorem State.rxByte_loadBytes_inside (s : State) {k j : Nat} {bs : List Nat} (hk : k + bs.length ≤ 256)
    (hbs : ∀ b ∈ bs, b ≤ 255) (hj : j < bs.length) :
    ((s.performAll (loadBytes k bs)).rxByte (k + j)).toNat = bs.getD j 0 := by
  induction bs generalizing s k j with
  | nil => cases hj
  | cons b bs ih =>
    rw [List.length_cons] at hk hj
    rw [loadBytes, State.performAll_cons]
    cases j with
    | zero =>
      have hb : b ≤ 255 := hbs b List.mem_cons_self
      have hsame := s.rxByte_perform_rxb_same (BitVec.ofNat 8 k) (BitVec.ofNat 8 b)
      rw [byte_toNat_of_lt (show k < 256 by omega)] at hsame
      rw [Nat.add_zero k, State.rxByte_loadBytes_outside _ (by omega) (by omega), hsame, byte_toNat_of_lt (by omega)]
      rfl
    | succ j =>
      have h := ih (s.perform (.rxb (BitVec.ofNat 8 k) (BitVec.ofNat 8 b))) (k := k + 1) (j := j) (by omega)
        (fun c hc => hbs c (List.mem_cons_of_mem b hc)) (by omega)
      rwa [Nat.add_assoc, Nat.add_comm 1] at h

/-! ### RXFRAME -/

/-- `t` is `s` with the bytes received: in the buffer from index 0 on, declared, present (R108). -/
structure State.HasReceived (s : State) (bytes : List Nat) (t : State) : Prop where
  byte : ∀ j, j < bytes.length → (t.rxByte j).toNat = bytes.getD j 0
  other : ∀ j, bytes.length ≤ j → t.rxByte j = s.rxByte j
  length : t.rxlen.val = bytes.length
  frame : t = { s with rxbuf := t.rxbuf, rxlen := t.rxlen, rxpres := true, err := 0#4 }

theorem State.HasReceived.rxpres {s t : State} {bytes : List Nat} (h : s.HasReceived bytes t) : t.rxpres = true := by
  rw [h.frame]

theorem State.HasReceived.txbuf {s t : State} {bytes : List Nat} (h : s.HasReceived bytes t) :
    t.txbuf = s.txbuf := by
  rw [h.frame]

theorem State.HasReceived.txlen {s t : State} {bytes : List Nat} (h : s.HasReceived bytes t) :
    t.txlen = s.txlen := by
  rw [h.frame]

theorem rxframe_wellFormed_iff (bytes : List Nat) :
    (Source.rxframe bytes).wellFormed = true ↔ (∀ b ∈ bytes, b ≤ 255) ∧ bytes.length ≤ 256 := by
  simp [Source.wellFormed, isByte]

/-- R108: RXFRAME's operations load the bytes and change nothing else. -/
theorem State.performAll_rxframe (s : State) {bytes : List Nat} (h : (Source.rxframe bytes).wellFormed = true) :
    s.HasReceived bytes (s.performAll (expand (.rxframe bytes))) := by
  obtain ⟨hbs, hlen⟩ := (rxframe_wellFormed_iff bytes).1 h
  have hn : (BitVec.ofNat 16 bytes.length).toNat = bytes.length := by
    rw [BitVec.toNat_ofNat]
    omega
  have hlt : (BitVec.ofNat 16 bytes.length).toNat < 257 := by omega
  rw [expand, State.performAll_append, State.performAll_cons, State.performAll_nil, State.perform_rxl _ hlt]
  refine ⟨fun j hj => ?byte, fun j hj => ?other, hn, ?frame⟩
  case byte =>
    have hbyte := s.rxByte_loadBytes_inside (k := 0) (by omega) hbs hj
    rwa [Nat.zero_add] at hbyte
  case other => exact s.rxByte_loadBytes_outside (k := 0) (by omega) (by omega)
  case frame => rw [s.performAll_loadBytes_frame]

theorem expand_rxframe_length (bytes : List Nat) : (expand (.rxframe bytes)).length = bytes.length + 1 := by
  have hload : ∀ k, (loadBytes k bytes).length = bytes.length := by
    induction bytes with
    | nil => exact fun _ => rfl
    | cons b bs ih => exact fun k => congrArg (· + 1) (ih (k + 1))
  rw [expand, List.length_append, hload, List.length_singleton]

/-- Settles O44: the assembled words perform RXFRAME's operations, one position each. -/
theorem rxframeLoadsResponse : Obligations.RxframeLoadsResponse := by
  intro s bytes words hwords
  obtain ⟨hwf, rfl⟩ := (assemble_eq_some_iff _ _).1 hwords
  obtain ⟨byte, other, length, frame⟩ := s.performAll_rxframe hwf
  refine ⟨_, s.runWords_encode _, byte, other, length, ?_⟩
  rw [expand_rxframe_length]
  conv_lhs => rw [frame]
  rfl

/-! ### A built frame loaded back -/

theorem wellFormed_rxframe_of_bytes {f : List Byte} (h : f.length ≤ 256) :
    (Source.rxframe (f.map BitVec.toNat)).wellFormed = true := by
  rw [rxframe_wellFormed_iff, List.forall_mem_map, List.length_map]
  exact ⟨fun b _ => Nat.le_of_lt_succ b.isLt, h⟩

theorem State.HasReceived.rxByte {s t : State} {f : List Byte} (h : s.HasReceived (f.map BitVec.toNat) t) {j : Nat}
    (hj : j < f.length) : t.rxByte j = frameByte f j := by
  apply BitVec.eq_of_toNat_eq
  rw [h.byte j (by rwa [List.length_map]), frameByte, List.getD_eq_getElem _ _ hj,
    List.getD_eq_getElem _ _ (by rwa [List.length_map]), List.getElem_map]

/-- Settles O28: the build leaves a frame, RXFRAME makes it the input and leaves `TXBUF`, and VCHK passes it. -/
theorem loopbackProgramValidates : Obligations.LoopbackProgramValidates := by
  intro i s t hi hexec
  obtain ⟨body, hb⟩ := exists_buildBody hi
  obtain ⟨hmin, hmax, -, -⟩ := hb.frameBody
  have ht : s.perform i = t := State.perform_eq_of_exec hexec
  have hframe : t.txFrame t.txlen.toNat = frameOf body := by
    rw [← ht, hb.perform, s.build_txlen_toNat hmax, s.txFrame_build hmax]
  have hflen : (frameOf body).length = body.length + 1 := frameOf_length body
  have hwf := wellFormed_rxframe_of_bytes (f := frameOf body) (by omega)
  have hrec := t.performAll_rxframe hwf
  generalize hload : expand (.rxframe ((frameOf body).map BitVec.toNat)) = load at hrec
  have hcheck : checkFlag (t.performAll load).rxInput = true := by
    refine State.checkFlag_of_holds_frame hmin hrec.rxpres ?_ fun j hj => hrec.rxByte (by omega)
    rw [hrec.length, List.length_map, hflen]
  have hprogram : encode i :: (load.map encode ++ [encode .vchk]) = (i :: (load ++ [.vchk])).map encode := by simp
  refine ⟨load.map encode, _, by rw [hframe, assemble_of_wellFormed hwf, hload],
    by rw [hprogram]; exact s.runWords_encode _, ?_⟩
  rw [State.performAll_cons, ht, State.performAll_append, State.performAll_cons, State.perform_vchk, hcheck]
  exact ⟨rfl, rfl, hrec.txbuf, hrec.txlen⟩

/-! ### The order of a load -/

section write

variable (m : Memory) {a i j : Nat} (b c d : Byte)

theorem Memory.write_cons_of_lt (h : i < a) : Memory.write ((a, d) :: m) i b = (i, b) :: (a, d) :: m := if_pos h

theorem Memory.write_cons_self : Memory.write ((a, d) :: m) a b = (a, b) :: m := by
  rw [Memory.write, if_neg (Nat.lt_irrefl a), if_pos rfl]

theorem Memory.write_cons_of_gt (h : a < i) :
    Memory.write ((a, d) :: m) i b = (a, d) :: Memory.write m i b := by
  rw [Memory.write, if_neg (Nat.lt_asymm h), if_neg (Nat.ne_of_gt h)]

/-- Two writes in rising and in falling order: the lower index ends up before the higher, wherever the list's own
indices stand. -/
theorem Memory.write_comm_of_lt (hij : i < j) :
    Memory.write (Memory.write m i b) j c = Memory.write (Memory.write m j c) i b := by
  induction m with
  | nil => exact (Memory.write_cons_of_gt [] c b hij).trans (Memory.write_cons_of_lt [] b c hij).symm
  | cons x m ih =>
    obtain ⟨a, d⟩ := x
    rcases Nat.lt_trichotomy i a with hi | rfl | hi
    · rw [Memory.write_cons_of_lt m b d hi, Memory.write_cons_of_gt _ c b hij]
      rcases Nat.lt_trichotomy j a with hj | rfl | hj
      · rw [Memory.write_cons_of_lt m c d hj, Memory.write_cons_of_lt _ b c hij]
      · rw [Memory.write_cons_self, Memory.write_cons_of_lt _ b c hij]
      · rw [Memory.write_cons_of_gt m c d hj, Memory.write_cons_of_lt _ b d hi]
    · rw [Memory.write_cons_self, Memory.write_cons_of_gt m c b hij, Memory.write_cons_of_gt m c d hij,
        Memory.write_cons_self]
    · have hj : a < j := Nat.lt_trans hi hij
      rw [Memory.write_cons_of_gt m b d hi, Memory.write_cons_of_gt _ c d hj, ih, Memory.write_cons_of_gt m c d hj,
        Memory.write_cons_of_gt _ b d hi]

theorem Memory.write_comm (hij : i ≠ j) :
    Memory.write (Memory.write m i b) j c = Memory.write (Memory.write m j c) i b := by
  rcases Nat.lt_or_gt_of_ne hij with h | h
  · exact Memory.write_comm_of_lt m b c h
  · exact (Memory.write_comm_of_lt m c b h).symm

end write

/-- Two operations whose order does not matter. -/
def Commute (i j : Instr) : Prop := ∀ s : State, (s.perform i).perform j = (s.perform j).perform i

theorem Commute.symm {i j : Instr} (h : Commute i j) : Commute j i := fun s => (h s).symm

theorem commute_rxb_rxb {x y : Byte} (hxy : x ≠ y) (b c : Byte) : Commute (.rxb x b) (.rxb y c) := by
  intro s
  have hne : x.toNat ≠ y.toNat := fun h => hxy (BitVec.eq_of_toNat_eq h)
  rw [State.perform_rxb, State.perform_rxb, State.perform_rxb, State.perform_rxb, s.rxbuf.write_comm b c hne]

theorem commute_rxl_rxb {n : Half} (hn : n.toNat < 257) (p : Bool) (x b : Byte) :
    Commute (.rxl n p) (.rxb x b) := by
  intro s
  rw [State.perform_rxl _ hn, State.perform_rxl _ hn]
  rfl

/-- R109: in one load, at distinct indices, the operations commute in pairs. -/
theorem commute_of_mem_load {bs : List (Byte × Byte)} {n : Half} (p : Bool) (hbs : (bs.map Prod.fst).Nodup)
    (hn : n.toNat < 257) {i j : Instr} (hi : i ∈ Instr.rxl n p :: bs.map (fun xb => .rxb xb.1 xb.2))
    (hj : j ∈ Instr.rxl n p :: bs.map (fun xb => .rxb xb.1 xb.2)) : Commute i j := by
  rw [List.mem_cons, List.mem_map] at hi hj
  rcases hi with rfl | ⟨⟨x, b⟩, hx, rfl⟩ <;> rcases hj with rfl | ⟨⟨y, c⟩, hy, rfl⟩
  · exact fun _ => rfl
  · exact commute_rxl_rxb hn p y c
  · exact (commute_rxl_rxb hn p x b).symm
  · by_cases hxy : x = y
    · cases List.inj_on_of_nodup_map hbs hx hy hxy
      exact fun _ => rfl
    · exact commute_rxb_rxb hxy b c

/-- Settles O45: operations that commute in pairs leave the same state in every order. -/
theorem loadOrderIsImmaterial : Obligations.LoadOrderIsImmaterial := by
  intro s bs n p ops _ hbs hn hperm
  have hn' : n.toNat < 257 := Nat.lt_succ_of_le hn
  have hall : s.performAll ops = s.performAll (.rxl n p :: bs.map (fun xb => .rxb xb.1 xb.2)) :=
    hperm.foldl_eq' (fun i hi j hj t => commute_of_mem_load p hbs hn' (hperm.mem_iff.1 hi) (hperm.mem_iff.1 hj) t) s
  refine ⟨_, s.runWords_encode ops, ?_⟩
  rw [s.runWords_encode, hall, hperm.length_eq]

end Sys2Proof.Machine
end

section
/-! SUPPORT. The decoding operations on the receive buffer, byte by byte (R89 to R104). The statements O29, O32, O33, O35,
O36 and O40. -/

namespace Sys2Proof.Machine

/-! ### VCHK -/

/-- The checksum test of the first `n` bytes received (R89, R97). -/
theorem State.checksumMatches_rxRead_iff (s : State) {n : Nat} (h : 0 < n) :
    checksumMatches (s.rxRead n) = true ↔ sum8 (s.rxRead (n - 1)) = s.rxByte (n - 1) := by
  obtain ⟨m, rfl⟩ := Nat.exists_eq_add_of_lt h
  rw [Nat.zero_add, s.checksumMatches_rxRead, beq_iff_eq, Nat.add_sub_cancel]

theorem State.rxInput_of_absent {s : State} (h : s.rxpres = false) : s.rxInput = none := by
  rw [State.rxInput, h, if_neg Bool.false_ne_true]

/-- Settles O29: VCHK's flag on absent, short and long enough input. -/
theorem vchkResult : Obligations.VchkResult := by
  intro s
  have hflag : checkFlag s.rxInput = (s.rxpres && decide (5 ≤ s.rxlen.val) &&
      decide (sum8 (s.rxRead (s.rxlen.val - 1)) = s.rxByte (s.rxlen.val - 1))) := by
    cases hp : s.rxpres with
    | false =>
      rw [State.rxInput_of_absent hp]
      rfl
    | true =>
      rw [State.rxInput_of_present hp, Bool.eq_iff_iff, checkFlag_eq_true_iff]
      by_cases h5 : 5 ≤ s.rxlen.val
      · simp [h5, s.checksumMatches_rxRead_iff (show 0 < s.rxlen.val by omega)]
      · simp [h5]
  rw [exec_eq_perform, s.perform_vchk, s.setCheckFlag_eq, hflag]

/-! ### Status decoding -/

/-- The Status in the bytes received (R93). -/
def State.receivedStatus (s : State) : Status where
  addr := s.rxByte 1
  cmd := s.rxByte 2
  lock := s.rxByte 4 ++ s.rxByte 3
  occ := s.rxByte 6 ++ s.rxByte 5

/-- Decoding the first `n` bytes received, 9 or more: the checks of R94 after the length, in their order. -/
def State.decodeReceived (s : State) (n : Nat) : StatusResult :=
  if s.rxByte 0 ≠ Config.stx ∨ s.rxByte 7 ≠ Config.etx then .fail .badFrameMarkers
  else if sum8 (s.rxRead (n - 1)) ≠ s.rxByte (n - 1) then .fail .checksumMismatch
  else if s.rxByte 2 ≠ Config.statusSingle ∧ s.rxByte 2 ≠ Config.statusAll then .fail .unexpectedOpcode
  else .ok s.receivedStatus

theorem decodeStatus_rxRead (s : State) {n : Nat} (h : 9 ≤ n) : decodeStatus (s.rxRead n) = s.decodeReceived n := by
  have hbyte : ∀ j, j < 9 → (s.rxRead n).getD j 0#8 = s.rxByte j := fun j hj => s.rxRead_getD (by omega)
  have hsum : checksumMatches (s.rxRead n) = false ↔ sum8 (s.rxRead (n - 1)) ≠ s.rxByte (n - 1) := by
    rw [← Bool.not_eq_true, s.checksumMatches_rxRead_iff (by omega)]
  have hop : isStatusOpcode (s.rxByte 2) = false ↔
      s.rxByte 2 ≠ Config.statusSingle ∧ s.rxByte 2 ≠ Config.statusAll := by
    rw [← Bool.not_eq_true, isStatusOpcode_iff, not_or]
  have hlen : ¬ (s.rxRead n).length < Config.statusLen := by
    rw [s.rxRead_length]
    exact Nat.not_lt.2 h
  rw [decodeStatus, if_neg hlen]
  simp (disch := decide) only [hbyte, hsum, hop]
  rfl

/-- What PSTAT decodes, on the receive buffer (R93). -/
theorem State.parseInput_rxInput (s : State) : parseInput s.rxInput =
    if s.rxpres = false ∨ s.rxlen.val < 9 then .fail .frameTooShort else s.decodeReceived s.rxlen.val := by
  cases hp : s.rxpres with
  | false => rw [State.rxInput_of_absent hp, if_pos (.inl rfl), parseInput]
  | true =>
    rw [State.rxInput_of_present hp, parseInput]
    by_cases h9 : s.rxlen.val < 9
    · rw [if_pos (.inr h9), decodeStatus_of_short (by rwa [s.rxRead_length])]
    · rw [if_neg (by simp [h9]), decodeStatus_rxRead s (Nat.le_of_not_lt h9)]

/-- What RXRESP decodes, on the receive buffer (R99). -/
theorem State.response_eq (s : State) : s.response =
    if s.rxpres = false ∨ s.rxlen.val = 0 then .fail .noResponse
    else if s.rxlen.val < 9 then .fail .invalidResponseLength else s.decodeReceived 9 := by
  rw [State.response, decodeStatus_rxRead s (Nat.le_refl 9)]

/-- Settles O32: PSTAT commits the first failing check, or the Status. -/
theorem pstatResult : Obligations.PstatResult := by
  intro s
  rw [exec_pstat, s.parseInput_rxInput, State.decodeReceived]
  simp only [apply_ite s.commitStatus]
  rfl

/-- Settles O33: RXRESP commits the first failing check, or the Status. -/
theorem rxrespResult : Obligations.RxrespResult := by
  intro s
  rw [exec_rxresp, s.response_eq, State.decodeReceived]
  simp only [apply_ite s.commitStatus]
  rfl

/-- Settles O35: at 9 bytes both decode the same bytes; below, each names the input by its own code. -/
theorem pstatAndRxrespCompared : Obligations.PstatAndRxrespCompared := by
  refine fun s => ⟨fun hp h9 => ?nine, fun hnone => ?none, fun hp hlo hhi => ?short⟩
  case nine =>
    refine ⟨s.commitStatus (s.decodeReceived 9), ?_, ?_⟩
    · rw [exec_pstat, s.parseInput_rxInput, if_neg (by simp [hp, h9]), h9]
    · rw [exec_rxresp, s.response_eq, if_neg (by simp [hp, h9]), if_neg (by omega)]
  case none =>
    refine ⟨_, _, exec_pstat s, exec_rxresp s, ?_, ?_⟩
    · rw [s.parseInput_rxInput, if_pos (hnone.imp_right (by omega))]
      rfl
    · rw [s.response_eq, if_pos hnone]
      rfl
  case short =>
    refine ⟨_, _, exec_pstat s, exec_rxresp s, ?_, ?_⟩
    · rw [s.parseInput_rxInput, if_pos (.inr (by omega))]
      rfl
    · rw [s.response_eq, if_neg (by simp [hp]; omega), if_pos (by omega)]
      rfl

/-! ### The door view -/

theorem State.decodeReceived_ok {s : State} {n : Nat} {st : Status} (h : s.decodeReceived n = .ok st) :
    st = s.receivedStatus := by
  unfold State.decodeReceived at h
  split_ifs at h
  exact (StatusResult.ok.inj h).symm

/-- A decoder that ends with ST_VALID = 1 has committed the Status of the bytes received. -/
theorem exec_decoder_valid {i : Instr} {s t : State} (hi : i = .pstat ∨ i = .rxresp) (hexec : exec i s = .next t)
    (hvalid : t.stValid = true) : t = s.commitStatus (.ok s.receivedStatus) := by
  have hcommit : ∃ r, t = s.commitStatus r ∧ ∀ st, r = .ok st → st = s.receivedStatus := by
    rcases hi with rfl | rfl
    · refine ⟨_, (Host.Outcome.next.inj hexec).symm, fun st hst => ?_⟩
      rw [s.parseInput_rxInput] at hst
      split_ifs at hst
      exact State.decodeReceived_ok hst
    · refine ⟨_, (Host.Outcome.next.inj hexec).symm, fun st hst => ?_⟩
      rw [s.response_eq] at hst
      split_ifs at hst
      exact State.decodeReceived_ok hst
  obtain ⟨r, rfl, hr⟩ := hcommit
  cases r with
  | ok st => rw [hr st rfl]
  | fail e => cases hvalid

/-- Settles O36: bit `d` of a concatenation of two bytes is bit `d` of the low one or bit `d - 8` of the high one. -/
theorem doorViewReadsBitmapBytes : Obligations.DoorViewReadsBitmapBytes := by
  intro i s t d hi hexec hvalid
  rw [exec_decoder_valid hi hexec hvalid]
  exact ⟨BitVec.getLsbD_append, BitVec.getLsbD_append⟩

/-! ### Wire opcodes -/

theorem BuildBody.frameByte_two {i : Instr} {body : List Byte} (h : BuildBody i body) (s : State) :
    frameByte (s.perform i).txbuf.toList 2 = body.getD 2 0#8 := by
  obtain ⟨hmin, -, -, -⟩ := h.frameBody
  rw [h.perform, s.frameByte_build (by decide), frameByte_frameOf (by omega)]

/-- With the markers and the checksum in place, the opcode decides (R92, R94). -/
theorem State.decodeReceived_code {s : State} {n : Nat} (hstx : s.rxByte 0 = Config.stx)
    (hetx : s.rxByte 7 = Config.etx) (hsum : sum8 (s.rxRead (n - 1)) = s.rxByte (n - 1)) :
    (s.decodeReceived n).kind.code =
      if s.rxByte 2 = Config.statusSingle ∨ s.rxByte 2 = Config.statusAll then 0#4 else 4#4 := by
  rw [State.decodeReceived, if_neg (by simp [hstx, hetx]), if_neg (by simp [hsum])]
  by_cases hop : s.rxByte 2 = Config.statusSingle ∨ s.rxByte 2 = Config.statusAll
  · rw [if_pos hop, if_neg (by rwa [← not_or, not_not])]
    rfl
  · rw [if_neg hop, if_pos (not_or.1 hop)]
    rfl

/-- Settles O40: a build copies the command byte; the decoders' last check is on it. -/
theorem wireOpcodeTreatment : Obligations.WireOpcodeTreatment := by
  refine fun c => ⟨fun a d v s => ?builds, fun s hp h9 hstx hetx hsum hc => ?pstat,
    fun s hp h9 hstx hetx hsum hc => ?rxresp⟩
  case builds =>
    exact ⟨_, _, _, exec_eq_perform _ s, exec_eq_perform _ s, exec_eq_perform _ s, (BuildBody.build0 a c).frameByte_two s,
      (BuildBody.build1 a c d).frameByte_two s, (BuildBody.build2 a c v).frameByte_two s⟩
  case pstat =>
    refine ⟨_, exec_pstat s, ?_⟩
    rw [s.commitStatus_err, s.parseInput_rxInput, if_neg (by simp [hp, h9]), State.decodeReceived_code hstx hetx hsum, hc]
  case rxresp =>
    refine ⟨_, exec_rxresp s, ?_⟩
    rw [s.commitStatus_err, s.response_eq, if_neg (by simp [hp]; omega), if_neg (by omega),
      State.decodeReceived_code (n := 9) hstx hetx hsum, hc]

end Sys2Proof.Machine
end

section
/-! SUPPORT. What an instruction reads (R42, R99, R136): two states that agree there get the same results. The statements
O37, O38, O39 and O49. -/

namespace Sys2Proof.Machine

/-! ### The input of the decoding operations -/

section input

variable {s u : State}

/-- VCHK and PSTAT read `RXPRES`, `RXLEN` and the bytes below it (R42). -/
theorem State.rxInput_congr (hp : s.rxpres = u.rxpres) (hl : s.rxlen = u.rxlen)
    (h : s.rxpres = true → ∀ j, j < s.rxlen.val → s.rxByte j = u.rxByte j) : s.rxInput = u.rxInput := by
  rw [State.rxInput, State.rxInput, ← hp, ← hl]
  by_cases hpres : s.rxpres = true
  · rw [if_pos hpres, if_pos hpres, State.rxRead_congr (h hpres)]
  · rw [if_neg hpres, if_neg hpres]

/-- RXRESP reads `RXPRES`, `RXLEN` and, of 9 bytes or more, the first 9 (R99). -/
theorem State.response_congr (hp : s.rxpres = u.rxpres) (hl : s.rxlen = u.rxlen)
    (h : s.rxpres = true → 9 ≤ s.rxlen.val → ∀ j, j < 9 → s.rxByte j = u.rxByte j) : s.response = u.response := by
  rw [State.response, State.response, ← hp, ← hl]
  split_ifs with hnone hshort
  · rfl
  · rfl
  · have hpres : s.rxpres = true := Bool.not_eq_false _ ▸ (not_or.1 hnone).1
    rw [State.rxRead_congr (h hpres (Nat.le_of_not_lt hshort))]

/-- Committing one answer in two states gives the same status registers and `ERR`. -/
theorem State.commitStatus_registers (s u : State) (r : StatusResult) :
    (s.commitStatus r).stValid = (u.commitStatus r).stValid ∧ (s.commitStatus r).stAddr = (u.commitStatus r).stAddr ∧
      (s.commitStatus r).stCmd = (u.commitStatus r).stCmd ∧ (s.commitStatus r).stLock = (u.commitStatus r).stLock ∧
      (s.commitStatus r).stOcc = (u.commitStatus r).stOcc ∧ (s.commitStatus r).err = (u.commitStatus r).err := by
  cases r <;> exact ⟨rfl, rfl, rfl, rfl, rfl, rfl⟩

end input

/-- Settles O37. -/
theorem decodersReadOnlyBelowRxlen : Obligations.DecodersReadOnlyBelowRxlen := by
  intro s u hp hl hbytes
  have hinput : s.rxInput = u.rxInput := State.rxInput_congr hp hl hbytes
  refine ⟨⟨_, _, exec_eq_perform _ s, exec_eq_perform _ u, ?_, rfl⟩, _, _, exec_pstat s, exec_pstat u, ?_⟩
  · exact congrArg checkFlag hinput
  · rw [hinput]
    exact s.commitStatus_registers u _

/-- Settles O38. -/
theorem rxrespReadsOnlyFirstNine : Obligations.RxrespReadsOnlyFirstNine := by
  intro s u hp hl hbytes
  refine ⟨_, _, exec_rxresp s, exec_rxresp u, ?_⟩
  rw [State.response_congr hp hl hbytes]
  exact s.commitStatus_registers u _

/-! ### The draw of the reset contents -/

/-- A written byte reads the same whichever draw the state has (R136). -/
theorem State.Loaded.rxByte_withResets {s : State} (h : s.Loaded) (n : Nat) {j : Nat} (hj : j < s.rxlen.val) :
    s.rxByte j = ({ s with resets := n } : State).rxByte j := by
  obtain ⟨b, hb⟩ := h j hj
  simp only [State.rxByte, hb]

theorem State.commitStatus_withResets (s : State) (n : Nat) (r : StatusResult) :
    ({ s with resets := n } : State).commitStatus r = { s.commitStatus r with resets := n } := by
  cases r <;> rfl

/-- Settles O39: a decoding operation reads bytes below `RXLEN` only, and those are written. -/
theorem loadedInputHidesResetBytes : Obligations.LoadedInputHidesResetBytes := by
  intro i s n hi hloaded
  have hinput : ({ s with resets := n } : State).rxInput = s.rxInput :=
    (State.rxInput_congr (s := s) (u := { s with resets := n }) rfl rfl fun _ _ =>
      hloaded.rxByte_withResets n).symm
  have hresponse : ({ s with resets := n } : State).response = s.response :=
    (State.response_congr (s := s) (u := { s with resets := n }) rfl rfl fun _ h9 j hj =>
      hloaded.rxByte_withResets n (by omega)).symm
  refine ⟨s.perform i, exec_eq_perform i s, ?_⟩
  rw [exec_eq_perform]
  rcases hi with rfl | rfl | rfl
  · rw [State.perform_vchk, hinput]
    rfl
  · rw [State.perform_pstat, hinput, s.commitStatus_withResets n]
    rfl
  · rw [State.perform_rxresp, hresponse, s.commitStatus_withResets n]
    rfl

/-! ### No hidden state -/

section sameBlock

variable {s u : State} (h : s.SameBlock u)
include h

theorem State.SameBlock.rxInput : s.rxInput = u.rxInput :=
  State.rxInput_congr h.rxpres h.rxlen fun _ j hj => h.rxbuf j (Nat.lt_of_lt_of_le hj (Nat.le_of_lt_succ s.rxlen.isLt))

theorem State.SameBlock.response : s.response = u.response :=
  State.response_congr h.rxpres h.rxlen fun _ _ j hj => h.rxbuf j (Nat.lt_of_lt_of_le hj (by decide))

theorem State.SameBlock.commitStatus (r : StatusResult) : (s.commitStatus r).SameBlock (u.commitStatus r) := by
  cases r with
  | ok st =>
    exact { h with stValid := rfl, stAddr := rfl, stCmd := rfl, stLock := rfl, stOcc := rfl, err := rfl }
  | fail e =>
    exact { h with stValid := rfl, stAddr := rfl, stCmd := rfl, stLock := rfl, stOcc := rfl, err := rfl }

theorem State.SameBlock.illegalOp : s.illegalOp.SameBlock u.illegalOp := { h with err := rfl }

theorem State.SameBlock.build (body : List Byte) : (s.build body).SameBlock (u.build body) :=
  { h with txbuf := rfl, txlen := rfl, err := rfl }

theorem State.SameBlock.rxb (x b : Byte) : (s.perform (.rxb x b)).SameBlock (u.perform (.rxb x b)) := by
  refine { h with rxbuf := fun j hj => ?_, err := rfl }
  by_cases hx : j = x.toNat
  · rw [hx, s.rxByte_perform_rxb_same, u.rxByte_perform_rxb_same]
  · rw [s.rxByte_perform_rxb_other b hx, u.rxByte_perform_rxb_other b hx, h.rxbuf j hj]

theorem State.SameBlock.rxl (n : Half) (p : Bool) : (s.perform (.rxl n p)).SameBlock (u.perform (.rxl n p)) := by
  by_cases hn : n.toNat < 257
  · rw [s.perform_rxl hn, u.perform_rxl hn]
    exact { h with rxlen := rfl, rxpres := rfl, err := rfl }
  · rw [s.perform_rxl_too_long (by omega), u.perform_rxl_too_long (by omega)]
    exact h.illegalOp

theorem State.SameBlock.perform (i : Instr) : (s.perform i).SameBlock (u.perform i) := by
  cases i with
  | mkaddr a b => exact { h with addrOut := rfl, err := rfl }
  | build0 | build1 | build2 => exact h.build _
  | vchk => exact { h with chkOk := congrArg checkFlag h.rxInput, err := rfl }
  | pstat =>
    rw [s.perform_pstat, u.perform_pstat, h.rxInput]
    exact h.commitStatus _
  | rxresp =>
    rw [s.perform_rxresp, u.perform_rxresp, h.response]
    exact h.commitStatus _
  | rxb x b => exact h.rxb x b
  | rxl n p => exact h.rxl n p
  | getStatus | unlockOne | getAllBus | unlockAll | statusSingle | statusAll | setUnlockTime | unlockTime
  | setDelayOrBaud | stx | etx => exact h.illegalOp

end sameBlock

/-- Settles O49. -/
theorem resultsDependOnBlockRegistersOnly : Obligations.ResultsDependOnBlockRegistersOnly :=
  fun i s u h => ⟨_, _, exec_eq_perform i s, exec_eq_perform i u, h.perform i⟩

end Sys2Proof.Machine
end
